-- ==== Sys2Proof/Word.lean ====
section
/-! DEFINITION. The word types of the MMI core and the two shapes of 2×2 linear algebra. -/

namespace Sys2Proof

/-- The data word of the host port and of every 32-bit register (00_scope.md R9). -/
abbrev Word := BitVec 32

/-- A raw result register: 96 bits, two's complement (10_state.md R34). -/
abbrev Raw := BitVec 96

/-- A 2×2 matrix `[[m00, m01], [m10, m11]]`, `mij` in row i and column j (00_scope.md R16). -/
structure Mat (α : Type) where
  m00 : α
  m01 : α
  m10 : α
  m11 : α
  deriving DecidableEq, Repr

/-- A 2×1 vector `[v0, v1]ᵗ` (00_scope.md R16). -/
structure Vec2 (α : Type) where
  v0 : α
  v1 : α
  deriving DecidableEq, Repr

/-- Apply a function to every entry of a matrix. -/
def Mat.map {α β : Type} (f : α → β) (m : Mat α) : Mat β :=
  { m00 := f m.m00, m01 := f m.m01, m10 := f m.m10, m11 := f m.m11 }

/-- Apply a function to both entries of a vector. -/
def Vec2.map {α β : Type} (f : α → β) (v : Vec2 α) : Vec2 β :=
  { v0 := f v.v0, v1 := f v.v1 }

end Sys2Proof
end

