-- ==== Sys2Proof/Syntax.lean ====
section
/-! DEFINITION. The nine commands of the MMI core, one constructor per row of spec/opcode_table.json. -/

namespace Sys2Proof

/-- A decoded command word: the opcode and its three select bits, as the `decode` of 30_encoding.md R71 returns them.
`msel`, `vsel`, `ssel` are bits 8, 9 and 10 of the word (30_encoding.md R61); `true` selects the result registers
(R63 to R65). Each command keeps all three: the ones it does not read are ignored, not illegal (R69; entry 16). -/
inductive Instr where
  /-- NORM, OP 0x01 (41_modular_arithmetic.md R96). -/
  | norm (msel vsel ssel : Bool)
  /-- MODINV, OP 0x02 (41_modular_arithmetic.md R97). -/
  | modinv (msel vsel ssel : Bool)
  /-- MVMUL, OP 0x03 (42_matrix_ops.md R107). -/
  | mvmul (msel vsel ssel : Bool)
  /-- MVMULM, OP 0x04 (42_matrix_ops.md R108). -/
  | mvmulm (msel vsel ssel : Bool)
  /-- DET, OP 0x05 (42_matrix_ops.md R110). -/
  | det (msel vsel ssel : Bool)
  /-- DETM, OP 0x06 (42_matrix_ops.md R111). -/
  | detm (msel vsel ssel : Bool)
  /-- ADJ, OP 0x07 (42_matrix_ops.md R113). -/
  | adj (msel vsel ssel : Bool)
  /-- SMULM, OP 0x08 (42_matrix_ops.md R115). -/
  | smulm (msel vsel ssel : Bool)
  /-- MINV, OP 0x09 (42_matrix_ops.md R117). -/
  | minv (msel vsel ssel : Bool)
  deriving DecidableEq, Repr

/-- MSEL (bit 8) of the command word (30_encoding.md R63). -/
def Instr.msel : Instr → Bool
  | .norm m _ _ => m
  | .modinv m _ _ => m
  | .mvmul m _ _ => m
  | .mvmulm m _ _ => m
  | .det m _ _ => m
  | .detm m _ _ => m
  | .adj m _ _ => m
  | .smulm m _ _ => m
  | .minv m _ _ => m

/-- VSEL (bit 9) of the command word (30_encoding.md R64). -/
def Instr.vsel : Instr → Bool
  | .norm _ v _ => v
  | .modinv _ v _ => v
  | .mvmul _ v _ => v
  | .mvmulm _ v _ => v
  | .det _ v _ => v
  | .detm _ v _ => v
  | .adj _ v _ => v
  | .smulm _ v _ => v
  | .minv _ v _ => v

/-- SSEL (bit 10) of the command word (30_encoding.md R65). -/
def Instr.ssel : Instr → Bool
  | .norm _ _ s => s
  | .modinv _ _ s => s
  | .mvmul _ _ s => s
  | .mvmulm _ _ s => s
  | .det _ _ s => s
  | .detm _ _ s => s
  | .adj _ _ s => s
  | .smulm _ _ s => s
  | .minv _ _ s => s

end Sys2Proof
end

