-- ==== Sys2Proof/WellFormed.lean ====
section
/-! DEFINITION. Which operands a command reads (30_encoding.md R68), and the check of the assembler: a command may not name a select it ignores. -/

namespace Sys2Proof

/-- MSEL is read by MVMUL, MVMULM, DET, DETM, ADJ, SMULM and MINV (30_encoding.md R69). -/
def Instr.readsM : Instr → Bool
  | .norm _ _ _ => false
  | .modinv _ _ _ => false
  | .mvmul _ _ _ => true
  | .mvmulm _ _ _ => true
  | .det _ _ _ => true
  | .detm _ _ _ => true
  | .adj _ _ _ => true
  | .smulm _ _ _ => true
  | .minv _ _ _ => true

/-- VSEL is read by MVMUL and MVMULM (30_encoding.md R69). -/
def Instr.readsV : Instr → Bool
  | .norm _ _ _ => false
  | .modinv _ _ _ => false
  | .mvmul _ _ _ => true
  | .mvmulm _ _ _ => true
  | .det _ _ _ => false
  | .detm _ _ _ => false
  | .adj _ _ _ => false
  | .smulm _ _ _ => false
  | .minv _ _ _ => false

/-- SSEL is read by NORM, MODINV and SMULM (30_encoding.md R69). -/
def Instr.readsS : Instr → Bool
  | .norm _ _ _ => true
  | .modinv _ _ _ => true
  | .mvmul _ _ _ => false
  | .mvmulm _ _ _ => false
  | .det _ _ _ => false
  | .detm _ _ _ => false
  | .adj _ _ _ => false
  | .smulm _ _ _ => true
  | .minv _ _ _ => false

/-- N is read by every command but MVMUL and DET (30_encoding.md R68, 40_command_cycle.md R83). -/
def Instr.readsN : Instr → Bool
  | .norm _ _ _ => true
  | .modinv _ _ _ => true
  | .mvmul _ _ _ => false
  | .mvmulm _ _ _ => true
  | .det _ _ _ => false
  | .detm _ _ _ => true
  | .adj _ _ _ => true
  | .smulm _ _ _ => true
  | .minv _ _ _ => true

/-- The well-formed commands: those the assembler writes, no ignored select named (30_encoding.md R74). The hardware
runs the others too (R69), so decoding, encoding and running are stated for every command, not only for these. -/
def Instr.wf (i : Instr) : Bool :=
  (i.readsM || !i.msel) && (i.readsV || !i.vsel) && (i.readsS || !i.ssel)

end Sys2Proof
end

