-- ==== Sys2Proof/Decode.lean ====
section
/-! DEFINITION. Decoding a command word, total on every word, and the encoder written from the same tables. -/

namespace Sys2Proof

/-- OP, bits [4:0] of a command word (30_encoding.md R61). -/
def opField (w : Word) : BitVec 5 := w.extractLsb' 0 5

/-- The reserved bits [7:5] and [31:11] are zero (30_encoding.md R66). -/
def reservedClear (w : Word) : Bool :=
  w.extractLsb' 5 3 == 0 && w.extractLsb' 11 21 == 0

/-- The command of an opcode with its select bits; `none` for an OP outside 0x01..0x09 (30_encoding.md R62, R68). -/
def instrOfOp (op : Nat) (msel vsel ssel : Bool) : Option Instr :=
  match op with
  | 0x01 => some (.norm msel vsel ssel)
  | 0x02 => some (.modinv msel vsel ssel)
  | 0x03 => some (.mvmul msel vsel ssel)
  | 0x04 => some (.mvmulm msel vsel ssel)
  | 0x05 => some (.det msel vsel ssel)
  | 0x06 => some (.detm msel vsel ssel)
  | 0x07 => some (.adj msel vsel ssel)
  | 0x08 => some (.smulm msel vsel ssel)
  | 0x09 => some (.minv msel vsel ssel)
  | _ => none

/-- Decoding, a total function of the 32-bit word (30_encoding.md R71); `none` is the spec's `illegal` (R70). -/
def decode (w : Word) : Option Instr :=
  if reservedClear w then
    instrOfOp (opField w).toNat (w.getLsbD 8) (w.getLsbD 9) (w.getLsbD 10)
  else none

/-- The opcode of a command (30_encoding.md R68). -/
def Instr.opcode : Instr → BitVec 5
  | .norm _ _ _ => 0x01
  | .modinv _ _ _ => 0x02
  | .mvmul _ _ _ => 0x03
  | .mvmulm _ _ _ => 0x04
  | .det _ _ _ => 0x05
  | .detm _ _ _ => 0x06
  | .adj _ _ _ => 0x07
  | .smulm _ _ _ => 0x08
  | .minv _ _ _ => 0x09

/-- A one-bit field as a word. -/
def bitWord (b : Bool) : Word := (BitVec.ofBool b).setWidth 32

/-- The word of a command: `op | (msel << 8) | (vsel << 9) | (ssel << 10)` (30_encoding.md R74). -/
def encode (i : Instr) : Word :=
  i.opcode.setWidth 32 ||| (bitWord i.msel <<< 8) ||| (bitWord i.vsel <<< 9) ||| (bitWord i.ssel <<< 10)

/-- The decoder on a word numbered as spec/opcode_table.json numbers it: bits at and above `nbits` are zero. -/
def decodeTableWord (nbits w : Nat) : Option Instr :=
  decode (BitVec.ofNat 32 (w % 2 ^ nbits))

end Sys2Proof
end

