-- ==== Sys2Proof/Config.lean ====
section
/-! DEFINITION. What the platform fixes (BASE) and the free values: opaque constants, so no proof can see a value of theirs. -/

namespace Sys2Proof

/-- The platform's choice of window: BASE is 0x100 times this number (00_scope.md R10, D7; entry 8). -/
opaque Config.baseBlock : Nat

/-- `BASE`, the byte address of offset 0x000 of the register window, a multiple of 0x100 (00_scope.md R10). -/
def Config.base : Nat := 0x100 * Config.baseBlock

/-- A free integer: nothing constrains it (entries 5, 6, 7). The first argument is the draw, which State counts;
the second says which field of that draw. -/
opaque Config.freeInt : Nat → Nat → Int

/-- A free 32-bit word of a draw: nothing constrains it (entries 5, 7). -/
opaque Config.freeWord : Nat → Word

end Sys2Proof
end

