-- ==== Sys2Proof/Machine/State.lean ====
section
/-! DEFINITION. The state of the MMI core (10_state.md R18) as plain data, with the turns of its agents, and the state after reset. -/

namespace Sys2Proof.Machine

/-- The errors a command can end with (60_exceptions.md R126). They are outcomes of a command, not faults of the machine. -/
inductive CmdError where
  /-- NO_INVERSE, code 1: MODINV and MINV. -/
  | noInverse
  /-- BAD_MODULUS, code 2: every command that reads N, when N < 2. -/
  | badModulus
  /-- ILLEGAL_CMD, code 3: every illegal command word. -/
  | illegalCmd
  deriving DecidableEq, Repr

/-- The 32-bit words of the register map (10_state.md section 2), each at its own offset. -/
inductive Reg where
  | id | cmd | status | ctrl
  | mod | a | m00 | m01 | m10 | m11 | v0 | v1
  | rS | rM00 | rM01 | rM10 | rM11 | rV0 | rV1
  | rW0w0 | rW0w1 | rW0w2 | rW1w0 | rW1w1 | rW1w2 | rDetw0 | rDetw1 | rDetw2
  deriving DecidableEq, Repr

/-- The operand registers MOD, A, M00..M11, V0, V1 (10_state.md R20). -/
structure OperandRegs where
  mod : Word
  a : Word
  m : Mat Word
  v : Vec2 Word
  deriving DecidableEq, Repr

/-- The result registers R_S, R_M00..R_M11, R_V0, R_V1 and the raw R_W0, R_W1, R_DET (10_state.md R31 to R34). -/
structure ResultRegs where
  rS : Word
  rM : Mat Word
  rV : Vec2 Word
  rW0 : Raw
  rW1 : Raw
  rDet : Raw
  deriving DecidableEq, Repr

/-- The fields of STATUS (10_state.md R23). Its bits [31:13] have no storage: they read 0 and ignore writes. -/
structure Status where
  busy : Bool
  done : Bool
  err : Bool
  ovr : Bool
  errcode : BitVec 4
  lastop : BitVec 5
  deriving DecidableEq, Repr

/-- The command latch LATCH, written by a launch and read by a completion (10_state.md R36). -/
structure Latch where
  cmd : Word
  n : Int
  s : Int
  m : Mat Int
  v : Vec2 Int
  deriving DecidableEq, Repr

/-- The working registers of the extended Euclidean algorithm (10_state.md R18, R37). Nothing reads them: they hold
free values (entry 6). -/
structure EeaRegs where
  oldR : Int
  r : Int
  oldS : Int
  s : Int
  q : Int
  deriving DecidableEq, Repr

/-- A host access `(kind, addr, size, data)` (20_memory.md R42); addresses are natural numbers (entry 9). -/
inductive Access where
  | read (addr size : Nat)
  | write (addr size : Nat) (data : Word)
  deriving DecidableEq, Repr

/-- The port's response to an access (20_memory.md R42); `unanswered` is an access made while reset is asserted, which
gets no response (70_reset_and_hazards.md R141; entry 11). -/
inductive Response where
  | okRead (d : Word)
  | okWrite
  | busError
  | unanswered
  deriving DecidableEq, Repr

/-- Which agent moves at one step (40_command_cycle.md R77): HOST with its access, CORE, or ENV on the reset input. -/
inductive Turn where
  | host (a : Access)
  | core
  | resetOn
  | resetOff
  deriving DecidableEq, Repr

/-- The faults of the machine: none. The core has no fault state (40_command_cycle.md R94), so no step ends in one; a bad
access is the response `busError` and a failing command an error in STATUS. Safe: nothing raises a fault. -/
inductive Fault where
  deriving DecidableEq, Repr

/-- The refusals of the model. -/
inductive Refusal where
  /-- An instruction that has no meaning yet, by its mnemonic. Raised by an arm of `exec` only, and by no arm of this
  model: every command has its meaning (40_command_cycle.md R94). Safe: a refused step proves nothing. -/
  | notModelled (mnemonic : String)
  deriving DecidableEq, Repr

/-- The state of the MMI core (10_state.md R18). ID, CMD, IRQ and the reserved bits have no storage: they are answered by
the operations that read them (entry 15). -/
structure State where
  /-- MOD, A, M00..M11, V0, V1. -/
  operands : OperandRegs
  /-- STATUS. -/
  status : Status
  /-- CTRL.IE (10_state.md R30); CTRL.SRST has no storage. -/
  ie : Bool
  /-- R_S, R_M, R_V, R_W0, R_W1, R_DET. -/
  results : ResultRegs
  /-- LATCH. -/
  latch : Latch
  /-- The Euclidean working registers. -/
  eea : EeaRegs
  /-- The level of the reset input: true while ENV asserts it (70_reset_and_hazards.md R141). -/
  rstIn : Bool
  /-- The port's response to the access served by the last step, `none` where that step served no access (entry 12). -/
  response : Option Response
  /-- The model's own: the agents' coming turns, the first one next (entry 1). -/
  turns : List Turn
  /-- The model's own: how many free draws have been made (entry 7). -/
  draws : Nat
  deriving DecidableEq, Repr

/-- Every operand register at its reset value (10_state.md section 2). -/
def OperandRegs.cleared : OperandRegs :=
  { mod := 0, a := 0, m := { m00 := 0, m01 := 0, m10 := 0, m11 := 0 }, v := { v0 := 0, v1 := 0 } }

/-- Every result register at its reset value (10_state.md section 2, R34). -/
def ResultRegs.cleared : ResultRegs :=
  { rS := 0, rM := { m00 := 0, m01 := 0, m10 := 0, m11 := 0 }, rV := { v0 := 0, v1 := 0 }, rW0 := 0, rW1 := 0, rDet := 0 }

/-- STATUS at its reset value (10_state.md R23). -/
def Status.cleared : Status :=
  { busy := false, done := false, err := false, ovr := false, errcode := 0, lastop := 0 }

/-- The machine right after reset (10_state.md R41, 70_reset_and_hazards.md R141, R145). LATCH and the Euclidean registers,
which the spec leaves unspecified there, are zero: DESIGN CHOICE, unsafe (entries 5, 6). -/
def State.reset : State :=
  { operands := OperandRegs.cleared
    status := Status.cleared
    ie := false
    results := ResultRegs.cleared
    latch := { cmd := 0, n := 0, s := 0, m := { m00 := 0, m01 := 0, m10 := 0, m11 := 0 }, v := { v0 := 0, v1 := 0 } }
    eea := { oldR := 0, r := 0, oldS := 0, s := 0, q := 0 }
    rstIn := false
    response := none
    turns := []
    draws := 0 }

end Sys2Proof.Machine
end

