-- ==== Sys2Proof/Machine/Operands.lean ====
section
/-! DEFINITION. Widths, signs and slices of words; normalization; the operand forms a launch selects between. -/

namespace Sys2Proof.Machine

/-- `sint32(w)`: the two's-complement value of a word (00_scope.md R12). -/
def sint32 (w : Word) : Int := w.toInt

/-- `zext_32(v)`: the word of an integer `0 ≤ v < 2^32` (00_scope.md R12). -/
def zext32 (v : Int) : Word := BitVec.ofInt 32 v

/-- `sext_96(v)`: the 96-bit two's-complement word of an integer (00_scope.md R12). -/
def sext96 (v : Int) : Raw := BitVec.ofInt 96 v

/-- `sint96`: the integer a host reads back from a raw register (10_state.md R34). -/
def sint96 (w : Raw) : Int := w.toInt

/-- Word k of a raw register: bits [32k+31:32k], the least significant word first (10_state.md R34). -/
def rawWord (w : Raw) (k : Nat) : Word := w.extractLsb' (32 * k) 32

/-- Byte k of a port word: bits [8k+7:8k], little-endian (20_memory.md R44). -/
def wordByte (w : Word) (k : Nat) : BitVec 8 := w.extractLsb' (8 * k) 8

/-- `norm(x, N) = x mod N`, the floor remainder (00_scope.md R13, R14). -/
def normZ (x n : Int) : Int := x % n

/-- The matrix–vector product, exact, each row from its own row of the matrix (42_matrix_ops.md R106, R109). -/
def matVec (m : Mat Int) (v : Vec2 Int) : Vec2 Int :=
  { v0 := m.m00 * v.v0 + m.m01 * v.v1, v1 := m.m10 * v.v0 + m.m11 * v.v1 }

/-- The determinant, exact (42_matrix_ops.md R110). -/
def determinant (m : Mat Int) : Int := m.m00 * m.m11 - m.m01 * m.m10

/-- The adjugate before normalization, exact: no 32-bit wrap of a negated entry (42_matrix_ops.md R113). -/
def adjugateRaw (m : Mat Int) : Mat Int :=
  { m00 := m.m11, m01 := -m.m01, m10 := -m.m10, m11 := m.m00 }

/-- The scalar operand: A, or R_S where SSEL is 1 (30_encoding.md R65, 40_command_cycle.md R79). -/
def selectScalar (ssel : Bool) (s : State) : Int :=
  sint32 (if ssel then s.results.rS else s.operands.a)

/-- The matrix operand: M00..M11, or R_M00..R_M11 where MSEL is 1 (30_encoding.md R63, 40_command_cycle.md R79). -/
def selectMatrix (msel : Bool) (s : State) : Mat Int :=
  (if msel then s.results.rM else s.operands.m).map sint32

/-- The vector operand: V0, V1, or R_V0, R_V1 where VSEL is 1 (30_encoding.md R64, 40_command_cycle.md R79). -/
def selectVector (vsel : Bool) (s : State) : Vec2 Int :=
  (if vsel then s.results.rV else s.operands.v).map sint32

/-- Everything a command could read, copied at launch by the select bits of the word (40_command_cycle.md R79). -/
def snapshot (d : Word) (s : State) : Latch :=
  { cmd := d
    n := sint32 s.operands.mod
    s := selectScalar (d.getLsbD 10) s
    m := selectMatrix (d.getLsbD 8) s
    v := selectVector (d.getLsbD 9) s }

end Sys2Proof.Machine
end

