-- ==== Sys2Proof/Machine/Euclid.lean ====
section
/-! DEFINITION. The extended Euclidean algorithm of 41_modular_arithmetic.md R98. -/

namespace Sys2Proof.Machine

/-- The iteration of `eea` (41_modular_arithmetic.md R98) on `(old_r, r, old_s, s)`, with a bound on its number of
iterations that `eea` chooses large enough (entry 13). It answers the coefficient s where it ends with r = 1, and `none`
where it ends with r = 0. -/
def eeaLoop : Nat → Int → Int → Int → Int → Option Int
  | 0, _, _, _, _ => none
  | k + 1, oldR, r, oldS, s =>
    if 1 < r then
      eeaLoop k r (oldR - (oldR / r) * r) s (oldS - (oldR / r) * s)
    else if r = 1 then some s
    else none

/-- `eea(a0, N)`: `some x` is the spec's `inv(x)`, `none` its `noinv` (41_modular_arithmetic.md R98). Each iteration makes
r strictly smaller, so `a0 + 1` rounds are enough. -/
def eea (a0 n : Int) : Option Int :=
  (eeaLoop (a0.toNat + 1) n a0 0 1).map fun s => normZ s n

end Sys2Proof.Machine
end

