-- ==== Sys2Proof/Machine/Flags.lean ====
section
/-! DEFINITION. The flags of the core: the fields of STATUS (10_state.md R39) and the interrupt output they drive. -/

namespace Sys2Proof.Machine

/-- The code of an error in STATUS.ERRCODE (60_exceptions.md R126). -/
def CmdError.code : CmdError → BitVec 4
  | .noInverse => 1
  | .badModulus => 2
  | .illegalCmd => 3

/-- STATUS as the host reads it (10_state.md R23): BUSY bit 0, DONE bit 1, ERR bit 2, OVR bit 3, ERRCODE [7:4],
LASTOP [12:8], the rest 0. -/
def Status.word (st : Status) : Word :=
  (BitVec.ofBool st.busy).setWidth 32
    ||| ((BitVec.ofBool st.done).setWidth 32 <<< 1)
    ||| ((BitVec.ofBool st.err).setWidth 32 <<< 2)
    ||| ((BitVec.ofBool st.ovr).setWidth 32 <<< 3)
    ||| (st.errcode.setWidth 32 <<< 4)
    ||| (st.lastop.setWidth 32 <<< 8)

/-- The flags after a launch of word d (40_command_cycle.md R78): OVR stays. -/
def Status.launched (st : Status) (d : Word) : Status :=
  { busy := true, done := false, err := false, ovr := st.ovr, errcode := 0, lastop := d.extractLsb' 0 5 }

/-- The flags after an overrun (40_command_cycle.md R84): OVR alone. -/
def Status.overrun (st : Status) : Status :=
  { st with ovr := true }

/-- The flags after a successful completion (40_command_cycle.md R82): OVR and LASTOP stay. -/
def Status.succeeded (st : Status) : Status :=
  { busy := false, done := true, err := false, ovr := st.ovr, errcode := 0, lastop := st.lastop }

/-- The flags after a failing completion (40_command_cycle.md R82, 60_exceptions.md R125): OVR and LASTOP stay. -/
def Status.failed (st : Status) (e : CmdError) : Status :=
  { busy := false, done := true, err := true, ovr := st.ovr, errcode := e.code, lastop := st.lastop }

/-- The flags after a host write of d to STATUS (10_state.md R23): DONE and OVR are write 1 to clear, nothing else. -/
def Status.acknowledged (st : Status) (d : Word) : Status :=
  { st with done := st.done && !d.getLsbD 1, ovr := st.ovr && !d.getLsbD 3 }

/-- The interrupt output: a level, IE and DONE (10_state.md R38, 60_exceptions.md R131). -/
def State.irq (s : State) : Bool := s.ie && s.status.done

end Sys2Proof.Machine
end

