-- ==== Sys2Proof/Machine/Ops.lean ====
section
/-! DEFINITION. The shared operations: the register map, the host port, launch, overrun, reset, and the end of a command, with
raising an error as ONE operation beside its acknowledgement. -/

namespace Sys2Proof.Machine

/-! ### Free values -/

/-- The Euclidean working registers of a draw: free values (10_state.md R37; entry 6). -/
def freeEea (d : Nat) : EeaRegs :=
  { oldR := Config.freeInt d 0, r := Config.freeInt d 1, oldS := Config.freeInt d 2, s := Config.freeInt d 3,
    q := Config.freeInt d 4 }

/-- LATCH of a draw: free values (70_reset_and_hazards.md R141 "LATCH <- unspecified"; entry 5). -/
def freeLatch (d : Nat) : Latch :=
  { cmd := Config.freeWord d
    n := Config.freeInt d 5
    s := Config.freeInt d 6
    m := { m00 := Config.freeInt d 7, m01 := Config.freeInt d 8, m10 := Config.freeInt d 9, m11 := Config.freeInt d 10 }
    v := { v0 := Config.freeInt d 11, v1 := Config.freeInt d 12 } }

/-- A launch, a completion and a reset leave the Euclidean working registers at free values (entry 6). -/
def State.stir (s : State) : State :=
  { s with eea := freeEea s.draws, draws := s.draws + 1 }

/-! ### Reset -/

/-- `reset()` (70_reset_and_hazards.md R141): every register of the map at its reset value, LATCH and the Euclidean
registers unspecified. A running command is abandoned with BUSY (R143). -/
def resetRegs (s : State) : State :=
  State.stir { s with
    operands := OperandRegs.cleared
    status := Status.cleared
    ie := false
    results := ResultRegs.cleared
    latch := freeLatch s.draws }

/-! ### Launch and overrun -/

/-- `launch(d)` (40_command_cycle.md R78): every word launches, legal or not. -/
def launch (d : Word) (s : State) : State :=
  State.stir { s with latch := snapshot d s, status := s.status.launched d }

/-- `overrun(d)` (40_command_cycle.md R84): the word is discarded, OVR is set. -/
def overrun (s : State) : State :=
  { s with status := s.status.overrun }

/-! ### The end of a command -/

/-- The result registers a successful command writes, each at most once (40_command_cycle.md R82); `none` leaves the
register as it is. -/
structure Writes where
  rS : Option Word := none
  rM : Option (Mat Word) := none
  rV : Option (Vec2 Word) := none
  rW : Option (Raw × Raw) := none
  rDet : Option Raw := none
  deriving DecidableEq, Repr

/-- The outcome of `exec_op` (40_command_cycle.md R82, R83). -/
inductive CmdOutcome where
  | ok (w : Writes)
  | err (e : CmdError)
  deriving DecidableEq, Repr

/-- Write the listed result registers all at once (40_command_cycle.md R82, 10_state.md R35). -/
def Writes.commit (w : Writes) (r : ResultRegs) : ResultRegs :=
  { rS := w.rS.getD r.rS
    rM := w.rM.getD r.rM
    rV := w.rV.getD r.rV
    rW0 := (w.rW.map Prod.fst).getD r.rW0
    rW1 := (w.rW.map Prod.snd).getD r.rW1
    rDet := w.rDet.getD r.rDet }

/-- A successful completion (40_command_cycle.md R82). -/
def succeed (w : Writes) (s : State) : State :=
  State.stir { s with results := w.commit s.results, status := s.status.succeeded }

/-- Raising an error, the one exception of the core (60_exceptions.md R125, R134): ERR and ERRCODE are set, LASTOP is
kept, the command ends as a success does, and no result register is written. Nothing else is saved and control goes
nowhere. -/
def raiseError (e : CmdError) (s : State) : State :=
  State.stir { s with status := s.status.failed e }

/-- Its return: there is no return instruction, the host acknowledges by writing STATUS (60_exceptions.md R135). ERR and
ERRCODE stay. -/
def acknowledge (d : Word) (s : State) : State :=
  { s with status := s.status.acknowledged d }

/-- A completion, in one step (40_command_cycle.md R82). -/
def complete (o : CmdOutcome) (s : State) : State :=
  match o with
  | .ok w => succeed w s
  | .err e => raiseError e s

/-- The check of a command that reads N: `N ≥ 2`, else BAD_MODULUS (40_command_cycle.md R83, R86). -/
def withModulus (l : Latch) (o : CmdOutcome) : CmdOutcome :=
  if l.n < 2 then .err .badModulus else o

/-! ### The register map -/

/-- The identification word (10_state.md R21). -/
def idWord : Word := 0x4D4D4932

/-- The byte offset of a register (10_state.md section 2). -/
def Reg.offset : Reg → Nat
  | .id => 0x000
  | .cmd => 0x004
  | .status => 0x008
  | .ctrl => 0x00C
  | .mod => 0x010
  | .a => 0x014
  | .m00 => 0x018
  | .m01 => 0x01C
  | .m10 => 0x020
  | .m11 => 0x024
  | .v0 => 0x028
  | .v1 => 0x02C
  | .rS => 0x040
  | .rM00 => 0x044
  | .rM01 => 0x048
  | .rM10 => 0x04C
  | .rM11 => 0x050
  | .rV0 => 0x054
  | .rV1 => 0x058
  | .rW0w0 => 0x060
  | .rW0w1 => 0x064
  | .rW0w2 => 0x068
  | .rW1w0 => 0x06C
  | .rW1w1 => 0x070
  | .rW1w2 => 0x074
  | .rDetw0 => 0x078
  | .rDetw1 => 0x07C
  | .rDetw2 => 0x080

/-- The register at an offset; `none` where the offset is unmapped (20_memory.md R50). -/
def regAt (off : Nat) : Option Reg :=
  match off with
  | 0x000 => some .id
  | 0x004 => some .cmd
  | 0x008 => some .status
  | 0x00C => some .ctrl
  | 0x010 => some .mod
  | 0x014 => some .a
  | 0x018 => some .m00
  | 0x01C => some .m01
  | 0x020 => some .m10
  | 0x024 => some .m11
  | 0x028 => some .v0
  | 0x02C => some .v1
  | 0x040 => some .rS
  | 0x044 => some .rM00
  | 0x048 => some .rM01
  | 0x04C => some .rM10
  | 0x050 => some .rM11
  | 0x054 => some .rV0
  | 0x058 => some .rV1
  | 0x060 => some .rW0w0
  | 0x064 => some .rW0w1
  | 0x068 => some .rW0w2
  | 0x06C => some .rW1w0
  | 0x070 => some .rW1w1
  | 0x074 => some .rW1w2
  | 0x078 => some .rDetw0
  | 0x07C => some .rDetw1
  | 0x080 => some .rDetw2
  | _ => none

/-- The value a host read of a register returns (20_memory.md R47): ID is hard-wired, CMD reads 0, STATUS and CTRL read
their reserved bits as 0, a raw word is its slice. -/
def readReg (s : State) (r : Reg) : Word :=
  match r with
  | .id => idWord
  | .cmd => 0
  | .status => s.status.word
  | .ctrl => (BitVec.ofBool s.ie).setWidth 32
  | .mod => s.operands.mod
  | .a => s.operands.a
  | .m00 => s.operands.m.m00
  | .m01 => s.operands.m.m01
  | .m10 => s.operands.m.m10
  | .m11 => s.operands.m.m11
  | .v0 => s.operands.v.v0
  | .v1 => s.operands.v.v1
  | .rS => s.results.rS
  | .rM00 => s.results.rM.m00
  | .rM01 => s.results.rM.m01
  | .rM10 => s.results.rM.m10
  | .rM11 => s.results.rM.m11
  | .rV0 => s.results.rV.v0
  | .rV1 => s.results.rV.v1
  | .rW0w0 => rawWord s.results.rW0 0
  | .rW0w1 => rawWord s.results.rW0 1
  | .rW0w2 => rawWord s.results.rW0 2
  | .rW1w0 => rawWord s.results.rW1 0
  | .rW1w1 => rawWord s.results.rW1 1
  | .rW1w2 => rawWord s.results.rW1 2
  | .rDetw0 => rawWord s.results.rDet 0
  | .rDetw1 => rawWord s.results.rDet 1
  | .rDetw2 => rawWord s.results.rDet 2

/-- A write to CMD: a launch, or an overrun while a command runs (10_state.md R22, 20_memory.md R48). -/
def writeCmd (d : Word) (s : State) : State :=
  if s.status.busy then overrun s else launch d s

/-- A write to CTRL: bit 1 performs the soft reset and nothing else, otherwise IE is bit 0 (10_state.md R30,
70_reset_and_hazards.md R142). -/
def writeCtrl (d : Word) (s : State) : State :=
  if d.getLsbD 1 then resetRegs s else { s with ie := d.getLsbD 0 }

/-- Write one operand register (20_memory.md R48), at any time, any word; every other register is left as it is. -/
def OperandRegs.write (o : OperandRegs) (r : Reg) (d : Word) : OperandRegs :=
  match r with
  | .mod => { o with mod := d }
  | .a => { o with a := d }
  | .m00 => { o with m := { o.m with m00 := d } }
  | .m01 => { o with m := { o.m with m01 := d } }
  | .m10 => { o with m := { o.m with m10 := d } }
  | .m11 => { o with m := { o.m with m11 := d } }
  | .v0 => { o with v := { o.v with v0 := d } }
  | .v1 => { o with v := { o.v with v1 := d } }
  | _ => o

/-- A host write to a register (20_memory.md R48); a read-only register ignores it (R49). -/
def writeReg (r : Reg) (d : Word) (s : State) : State :=
  match r with
  | .cmd => writeCmd d s
  | .status => acknowledge d s
  | .ctrl => writeCtrl d s
  | _ => { s with operands := s.operands.write r d }

/-! ### The host port -/

/-- The offset of an address in the window `BASE ≤ addr < BASE + 0x100` (20_memory.md R43). -/
def offsetOf (addr : Nat) : Option Nat :=
  if Config.base ≤ addr ∧ addr < Config.base + 0x100 then some (addr - Config.base) else none

/-- The register an access reaches; `none` where the port answers `buserror`: a misaligned address (20_memory.md R45), a
size other than 4 (R46), an unmapped offset (R50), or an address outside the window (entry 10). -/
def target (addr size : Nat) : Option Reg :=
  if size = 4 ∧ addr % 4 = 0 then (offsetOf addr).bind regAt else none

/-- One host access at the port (20_memory.md R42, R47, R48): exactly one response, `buserror` changes no state (R51). -/
def serve (a : Access) (s : State) : State :=
  match a with
  | .read addr size =>
    match target addr size with
    | some r => { s with response := some (.okRead (readReg s r)) }
    | none => { s with response := some .busError }
  | .write addr size d =>
    match target addr size with
    | some r => { writeReg r d s with response := some .okWrite }
    | none => { s with response := some .busError }

/-- The byte at an address of the window, as a platform that numbers the bytes of a word sees it: byte k of the word at
BASE + off is bits [8k+7:8k] (20_memory.md R44). -/
def windowByte (s : State) (addr : Nat) : Option (BitVec 8) :=
  ((offsetOf addr).bind fun off => regAt (4 * (off / 4))).map fun r => wordByte (readReg s r) (addr % 4)

end Sys2Proof.Machine
end

