-- ==== Sys2Proof/Machine/MatrixOps.lean ====
section
/-! DEFINITION. The matrix commands MVMUL, MVMULM, DET, DETM, ADJ, SMULM and MINV (42_matrix_ops.md). Each meaning is the completion of
a launched command: it computes from LATCH alone (40_command_cycle.md R79, R85), exactly (42_matrix_ops.md R105). -/

namespace Sys2Proof.Machine

/-- `exec_op(MVMUL, L)` (42_matrix_ops.md R107). -/
def opMvmul (l : Latch) : CmdOutcome :=
  let w := matVec l.m l.v
  .ok { rW := some (sext96 w.v0, sext96 w.v1) }

/-- `exec_op(MVMULM, L)` (42_matrix_ops.md R108): reduced only after the full product. -/
def opMvmulm (l : Latch) : CmdOutcome :=
  let w := matVec l.m l.v
  .ok { rW := some (sext96 w.v0, sext96 w.v1), rV := some (w.map fun x => zext32 (normZ x l.n)) }

/-- `exec_op(DET, L)` (42_matrix_ops.md R110). -/
def opDet (l : Latch) : CmdOutcome :=
  .ok { rDet := some (sext96 (determinant l.m)) }

/-- `exec_op(DETM, L)` (42_matrix_ops.md R111). -/
def opDetm (l : Latch) : CmdOutcome :=
  .ok { rDet := some (sext96 (determinant l.m)), rS := some (zext32 (normZ (determinant l.m) l.n)) }

/-- `exec_op(ADJ, L)` (42_matrix_ops.md R113). -/
def opAdj (l : Latch) : CmdOutcome :=
  .ok { rM := some ((adjugateRaw l.m).map fun x => zext32 (normZ x l.n)) }

/-- `exec_op(SMULM, L)` (42_matrix_ops.md R115). -/
def opSmulm (l : Latch) : CmdOutcome :=
  .ok { rM := some (l.m.map fun x => zext32 (normZ (x * l.s) l.n)) }

/-- `exec_op(MINV, L)` (42_matrix_ops.md R117): the adjugate is normalized before the product, as the pseudocode has it
(R118 says the order does not matter). -/
def opMinv (l : Latch) : CmdOutcome :=
  match eea (normZ (determinant l.m) l.n) l.n with
  | none => .err .noInverse
  | some dinv =>
    .ok { rDet := some (sext96 (determinant l.m))
          rS := some (zext32 dinv)
          rM := some ((adjugateRaw l.m).map fun x => zext32 (normZ (normZ x l.n * dinv) l.n)) }

/-- MVMUL: R_W0 and R_W1 are the exact product; N is not read (42_matrix_ops.md R107). -/
def execMvmul (s : State) : Host.Outcome State Fault Refusal :=
  .next (complete (opMvmul s.latch) s)

/-- MVMULM: the exact product in R_W0, R_W1 and its residues in R_V (42_matrix_ops.md R108). -/
def execMvmulm (s : State) : Host.Outcome State Fault Refusal :=
  .next (complete (withModulus s.latch (opMvmulm s.latch)) s)

/-- DET: R_DET is the exact determinant; N is not read (42_matrix_ops.md R110). -/
def execDet (s : State) : Host.Outcome State Fault Refusal :=
  .next (complete (opDet s.latch) s)

/-- DETM: the exact determinant in R_DET and its residue in R_S (42_matrix_ops.md R111). -/
def execDetm (s : State) : Host.Outcome State Fault Refusal :=
  .next (complete (withModulus s.latch (opDetm s.latch)) s)

/-- ADJ: R_M is the adjugate mod N (42_matrix_ops.md R113). -/
def execAdj (s : State) : Host.Outcome State Fault Refusal :=
  .next (complete (withModulus s.latch (opAdj s.latch)) s)

/-- SMULM: R_M is S times the matrix, mod N (42_matrix_ops.md R115). -/
def execSmulm (s : State) : Host.Outcome State Fault Refusal :=
  .next (complete (withModulus s.latch (opSmulm s.latch)) s)

/-- MINV: R_M is the inverse mod N, R_S the inverse of the determinant, R_DET the determinant, or NO_INVERSE
(42_matrix_ops.md R117). -/
def execMinv (s : State) : Host.Outcome State Fault Refusal :=
  .next (complete (withModulus s.latch (opMinv s.latch)) s)

end Sys2Proof.Machine
end

