-- ==== Sys2Proof/Machine/Scalar.lean ====
section
/-! DEFINITION. The scalar commands NORM and MODINV (41_modular_arithmetic.md). Each meaning is the completion of a launched command:
it computes from LATCH alone (40_command_cycle.md R79, R85). -/

namespace Sys2Proof.Machine

/-- `exec_op(NORM, L)` (41_modular_arithmetic.md R96). -/
def opNorm (l : Latch) : CmdOutcome :=
  .ok { rS := some (zext32 (normZ l.s l.n)) }

/-- `exec_op(MODINV, L)` (41_modular_arithmetic.md R97): S is normalized first (R104). -/
def opModinv (l : Latch) : CmdOutcome :=
  match eea (normZ l.s l.n) l.n with
  | some x => .ok { rS := some (zext32 x) }
  | none => .err .noInverse

/-- NORM: R_S is S mod N (41_modular_arithmetic.md R96). -/
def execNorm (s : State) : Host.Outcome State Fault Refusal :=
  .next (complete (withModulus s.latch (opNorm s.latch)) s)

/-- MODINV: R_S is the inverse of S mod N, or NO_INVERSE (41_modular_arithmetic.md R97). -/
def execModinv (s : State) : Host.Outcome State Fault Refusal :=
  .next (complete (withModulus s.latch (opModinv s.latch)) s)

end Sys2Proof.Machine
end

