-- ==== Sys2Proof/Machine/Dispatch.lean ====
section
/-! DEFINITION. `exec`: one arm per command, each the completion of that command (40_command_cycle.md R83). -/

namespace Sys2Proof.Machine

/-- The completion of a launched command (40_command_cycle.md R82, R83): it reads its operands in LATCH, where the launch
put them by the word's select bits (R79), so no arm passes the select bits on (entry 16). -/
def exec (i : Instr) (s : State) : Host.Outcome State Fault Refusal :=
  match i with
  | .norm _ _ _ => Sys2Proof.Machine.execNorm s
  | .modinv _ _ _ => Sys2Proof.Machine.execModinv s
  | .mvmul _ _ _ => Sys2Proof.Machine.execMvmul s
  | .mvmulm _ _ _ => Sys2Proof.Machine.execMvmulm s
  | .det _ _ _ => Sys2Proof.Machine.execDet s
  | .detm _ _ _ => Sys2Proof.Machine.execDetm s
  | .adj _ _ _ => Sys2Proof.Machine.execAdj s
  | .smulm _ _ _ => Sys2Proof.Machine.execSmulm s
  | .minv _ _ _ => Sys2Proof.Machine.execMinv s

end Sys2Proof.Machine
end

