-- ==== Sys2Proof/Machine/Turns.lean ====
section
/-! DEFINITION. One turn of each agent (40_command_cycle.md R77): HOST, CORE and ENV. -/

namespace Sys2Proof.Machine

/-- `exec(L)` of 40_command_cycle.md R83: the latched word is decoded first, and an illegal word raises ILLEGAL_CMD. -/
def completion (s : State) : Host.Outcome State Fault Refusal :=
  match decode s.latch.cmd with
  | some i => exec i s
  | none => .next (raiseError .illegalCmd s)

/-- CORE's turn: a completion exactly when BUSY = 1 (40_command_cycle.md R81); otherwise CORE has no step and the turn
passes (entry 3). -/
def coreTurn (s : State) : Host.Outcome State Fault Refusal :=
  if s.status.busy then completion s else .next s

/-- The turn is taken off the list and the port shows no response until the turn gives one (entry 12). -/
def State.begin (s : State) (rest : List Turn) : State :=
  { s with turns := rest, response := none }

/-- One agent's turn. While the reset input is asserted every register is held at its reset value and host accesses are
not answered (70_reset_and_hazards.md R141; entry 11). -/
def takeTurn (t : Turn) (s : State) : Host.Outcome State Fault Refusal :=
  match t with
  | .host a => .next (if s.rstIn then { resetRegs s with response := some .unanswered } else serve a s)
  | .core => if s.rstIn then .next (resetRegs s) else coreTurn s
  | .resetOn => .next { resetRegs s with rstIn := true }
  | .resetOff => .next { s with rstIn := false }

/-- The next turn of the list; when the list is used up it is CORE's, so a launched command is always completed in the end
(40_command_cycle.md R80, R91; entry 2). -/
def nextTurn (s : State) : Host.Outcome State Fault Refusal :=
  match s.turns with
  | [] => takeTurn .core (s.begin [])
  | t :: rest => takeTurn t (s.begin rest)

/-- The state in which a command word has been launched and CORE moves next (entry 4). -/
def launchedNext (d : Word) (s : State) : State :=
  { launch d s with rstIn := false, turns := .core :: s.turns }

end Sys2Proof.Machine
end

