-- ==== Sys2Proof/Machine/Step.lean ====
section
/-! DEFINITION. One step of the machine, and placing a command word so that the very next step runs it. -/

namespace Sys2Proof.Machine

/-- One step: the next agent's turn (40_command_cycle.md R77). -/
def step (s : State) : Host.Outcome State Fault Refusal := nextTurn s

/-- The word w, with its bits at and above `nbits` zero, launched from s, and CORE's turn put first: the very next step
decodes it and completes it (entry 4). The core fetches nothing: a command word comes through the CMD port (10_state.md
R19, R22). -/
def State.withFetchWord (s : State) (nbits w : Nat) : State :=
  launchedNext (BitVec.ofNat 32 (w % 2 ^ nbits)) s

end Sys2Proof.Machine
end

