-- ==== Sys2Proof/Machine/Assembler.lean ====
section
/-! DEFINITION. Host accesses as (offset, data) pairs, the assembly form of a command, host program lines and the pseudo-instructions
(30_encoding.md R73 to R76). They are the host's notation: each comes down to accesses on the port. -/

namespace Sys2Proof.Machine

/-- A host access as the pair (offset, data): `W off d` or `R off`, off from BASE (30_encoding.md R73). -/
inductive PortOp where
  | w (off : Nat) (d : Word)
  | r (off : Nat)
  deriving DecidableEq, Repr

/-- The access a pair stands for (20_memory.md R47, R48). -/
def PortOp.access : PortOp → Access
  | .w off d => .write (Config.base + off) 4 d
  | .r off => .read (Config.base + off) 4

/-- The mnemonic of a command (30_encoding.md R68). -/
def mnemonicOf : Instr → String
  | .norm _ _ _ => "NORM"
  | .modinv _ _ _ => "MODINV"
  | .mvmul _ _ _ => "MVMUL"
  | .mvmulm _ _ _ => "MVMULM"
  | .det _ _ _ => "DET"
  | .detm _ _ _ => "DETM"
  | .adj _ _ _ => "ADJ"
  | .smulm _ _ _ => "SMULM"
  | .minv _ _ _ => "MINV"

/-- The names of the select bits that are 1 (30_encoding.md R74), in the order m, v, s (entry 20). -/
def selectNames (i : Instr) : List String :=
  (if i.msel then ["m=R"] else []) ++ (if i.vsel then ["v=R"] else []) ++ (if i.ssel then ["s=R"] else [])

/-- The names after a mnemonic, separated by commas (30_encoding.md R74). -/
def joinNames : List String → String
  | [] => ""
  | [x] => x
  | x :: y :: rest => x ++ ", " ++ joinNames (y :: rest)

/-- The assembly form of a command; `none` where it would name a select the command ignores (30_encoding.md R74). -/
def asmText (i : Instr) : Option String :=
  if i.wf then
    some (match selectNames i with
      | [] => mnemonicOf i
      | names => mnemonicOf i ++ " " ++ joinNames names)
  else none

/-- Every command with every value of its select bits. -/
def allInstrs : List Instr :=
  [Instr.norm, Instr.modinv, Instr.mvmul, Instr.mvmulm, Instr.det, Instr.detm, Instr.adj, Instr.smulm, Instr.minv].flatMap
    fun f => [f false false false, f false false true, f false true false, f false true true,
              f true false false, f true false true, f true true false, f true true true]

/-- The word of an assembly text; `none` for a text the assembler refuses (30_encoding.md R74). -/
def assemble (text : String) : Option Word :=
  (allInstrs.find? fun i => asmText i == some text).map encode

/-- The word of a value in `WR <reg>, <value>`: `sext_32` of a negative value, `zext_32` of another, refused outside
[−2^31, 2^32) (30_encoding.md R75). -/
def asmValue (v : Int) : Option Word :=
  if -2 ^ 31 ≤ v ∧ v < 2 ^ 32 then some (BitVec.ofInt 32 v) else none

/-- The raw registers, each read as three words (30_encoding.md R76 `RDRAW`). -/
inductive RawReg where
  | rW0 | rW1 | rDet
  deriving DecidableEq, Repr

/-- The three words of a raw register, least significant first (10_state.md R34). -/
def RawReg.words : RawReg → List Reg
  | .rW0 => [.rW0w0, .rW0w1, .rW0w2]
  | .rW1 => [.rW1w0, .rW1w1, .rW1w2]
  | .rDet => [.rDetw0, .rDetw1, .rDetw2]

/-- A line of a host program (30_encoding.md R75) or a pseudo-instruction (R76). `again` of `wait` and `run` is how many
polls read BUSY = 1 before the one that ends the loop: the loop is the host's, and the core sees only its reads
(entry 20). -/
inductive Line where
  | wr (r : Reg) (v : Int)
  | rd (r : Reg)
  | cmd (i : Instr)
  | wait (again : Nat)
  | ack
  | clrovr
  | rdraw (x : RawReg)
  | srst
  | run (i : Instr) (again : Nat)
  deriving DecidableEq, Repr

/-- `CMD <command>`: a write of its word to CMD, refused where the assembler refuses the command (30_encoding.md R75). -/
def cmdOps (i : Instr) : Option (List PortOp) :=
  if i.wf then some [.w Reg.cmd.offset (encode i)] else none

/-- `WAIT`: reads of STATUS until one shows BUSY = 0 (30_encoding.md R76). -/
def waitOps (again : Nat) : List PortOp :=
  List.replicate (again + 1) (.r Reg.status.offset)

/-- The accesses of a line (30_encoding.md R75, R76); `none` where the assembler refuses it. -/
def lineOps : Line → Option (List PortOp)
  | .wr r v => (asmValue v).map fun d => [.w r.offset d]
  | .rd r => some [.r r.offset]
  | .cmd i => cmdOps i
  | .wait again => some (waitOps again)
  | .ack => some [.w Reg.status.offset 0x2]
  | .clrovr => some [.w Reg.status.offset 0x8]
  | .rdraw x => some (x.words.map fun r => .r r.offset)
  | .srst => some [.w Reg.ctrl.offset 0x2]
  | .run i again => (cmdOps i).map fun ops => ops ++ waitOps again

/-- The accesses of a host program (30_encoding.md R73, R75). -/
def programOps : List Line → Option (List PortOp)
  | [] => some []
  | l :: rest =>
    match lineOps l, programOps rest with
    | some a, some b => some (a ++ b)
    | _, _ => none

/-- The host's turns for a list of accesses; CORE's and ENV's turns may be put anywhere between them
(40_command_cycle.md R77). -/
def hostTurns (ops : List PortOp) : List Turn :=
  ops.map fun o => .host o.access

end Sys2Proof.Machine
end

