-- ==== Sys2Proof/Safety.lean ====
section
/-! DEFINITION. What counts as a safe state and a finished run, in the terms the claims use. -/

namespace Sys2Proof.Machine

/-- A 32-bit signed integer: what a latched operand is (30_encoding.md R67, 41_modular_arithmetic.md R95). -/
def FitsInt32 (x : Int) : Prop := -2 ^ 31 ≤ x ∧ x < 2 ^ 31

/-- Every latched operand is the value of a 32-bit word (40_command_cycle.md R79). -/
structure Latch.Fits (l : Latch) : Prop where
  n : FitsInt32 l.n
  s : FitsInt32 l.s
  m00 : FitsInt32 l.m.m00
  m01 : FitsInt32 l.m.m01
  m10 : FitsInt32 l.m.m10
  m11 : FitsInt32 l.m.m11
  v0 : FitsInt32 l.v.v0
  v1 : FitsInt32 l.v.v1

/-- A result register that holds a residue holds a word below 2^31 (30_encoding.md R67, 41_modular_arithmetic.md R103). -/
def IsResidueWord (w : Word) : Prop := w.toNat < 2 ^ 31

/-- A raw register holds an exact result, of magnitude at most 2^63 (42_matrix_ops.md R105). -/
def IsExactRaw (w : Raw) : Prop := -2 ^ 63 ≤ w.toInt ∧ w.toInt ≤ 2 ^ 63

/-- `w` is `norm(x, N)` as doc00 §4.2 has it: the word r with `0 ≤ r < N` and `r ≡ x (mod N)` (00_scope.md R14). -/
def IsResidueOf (w : Word) (x n : Int) : Prop := (w.toNat : Int) < n ∧ n ∣ x - w.toNat

/-- A word is no command: its OP is outside 0x01..0x09, or a bit of [7:5] or [31:11] is set (30_encoding.md R70). -/
def IllegalWord (w : Word) : Prop :=
  (w.extractLsb' 0 5).toNat = 0 ∨ 9 < (w.extractLsb' 0 5).toNat ∨ w.extractLsb' 5 3 ≠ 0 ∨ w.extractLsb' 11 21 ≠ 0

/-- The flags of a completion that succeeded: OVR and LASTOP are kept (40_command_cycle.md R82). -/
def Succeeded (s t : State) : Prop :=
  t.status = { busy := false, done := true, err := false, ovr := s.status.ovr, errcode := 0, lastop := s.status.lastop }

/-- The flags of a completion that failed with a code; no result register is written (40_command_cycle.md R82, R87). -/
def FailedWith (code : BitVec 4) (s t : State) : Prop :=
  t.status = { busy := false, done := true, err := true, ovr := s.status.ovr, errcode := code, lastop := s.status.lastop } ∧
    t.results = s.results

/-- What no completion changes: the operand registers, CTRL, LATCH, the reset input, the port's response and the coming
turns. (The Euclidean registers are free and the draws are counted.) -/
def CommandFrame (s t : State) : Prop :=
  t.operands = s.operands ∧ t.ie = s.ie ∧ t.latch = s.latch ∧ t.rstIn = s.rstIn ∧ t.response = s.response ∧
    t.turns = s.turns

/-- The host's write of a word to CMD, at BASE + 0x004. -/
def cmdWrite (d : Word) : Turn := .host (.write (Config.base + 0x004) 4 d)

/-- The invariant of the core, kept by every step of every agent. -/
structure State.Inv (s : State) : Prop where
  /-- BUSY and DONE never hold together (10_state.md R25). -/
  busy_done : ¬(s.status.busy = true ∧ s.status.done = true)
  /-- ERR = 0 exactly when ERRCODE = 0 (10_state.md R28). -/
  err_iff : s.status.err = false ↔ s.status.errcode = 0
  /-- Codes 4 to 15 are never produced (60_exceptions.md R126). -/
  errcode_le : s.status.errcode.toNat ≤ 3
  /-- While a command runs no error is shown (40_command_cycle.md R78). -/
  busy_clean : s.status.busy = true → s.status.err = false
  /-- While a command runs LASTOP is the opcode field of the latched word (10_state.md R29). -/
  busy_lastop : s.status.busy = true → s.status.lastop = s.latch.cmd.extractLsb' 0 5
  /-- While a command runs its operands are values of 32-bit words (40_command_cycle.md R79). -/
  busy_fits : s.status.busy = true → s.latch.Fits
  /-- R_S, R_M and R_V hold residues of a legal modulus (10_state.md R31 to R33). -/
  rS_residue : IsResidueWord s.results.rS
  rM00_residue : IsResidueWord s.results.rM.m00
  rM01_residue : IsResidueWord s.results.rM.m01
  rM10_residue : IsResidueWord s.results.rM.m10
  rM11_residue : IsResidueWord s.results.rM.m11
  rV0_residue : IsResidueWord s.results.rV.v0
  rV1_residue : IsResidueWord s.results.rV.v1
  /-- R_W0, R_W1 and R_DET hold exact results (42_matrix_ops.md R105). -/
  rW0_exact : IsExactRaw s.results.rW0
  rW1_exact : IsExactRaw s.results.rW1
  rDet_exact : IsExactRaw s.results.rDet
  /-- While the reset input is asserted every register is at its reset value (70_reset_and_hazards.md R141). -/
  held : s.rstIn = true → s.operands = OperandRegs.cleared ∧ s.status = Status.cleared ∧ s.ie = false ∧
    s.results = ResultRegs.cleared

/-- The access of a turn of HOST; CORE and ENV make none (40_command_cycle.md R77). -/
def Turn.access? : Turn → Option Access
  | .host a => some a
  | .core => none
  | .resetOn => none
  | .resetOff => none

/-- The accesses the host has still to perform, in order: what is left of its program (40_command_cycle.md R91). -/
def State.accessesLeft (s : State) : List Access := s.turns.filterMap Turn.access?

/-- The start of a run: the reset state, with the host's program among the coming turns (40_command_cycle.md R91,
70_reset_and_hazards.md R144). -/
def State.startRun (turns : List Turn) : State := { State.reset with turns := turns }

/-- A run has ended: the host has performed its last access and BUSY = 0 (40_command_cycle.md R91). Turns of CORE and ENV may
still come. -/
def State.Ended (s : State) : Prop := s.accessesLeft = [] ∧ s.status.busy = false

end Sys2Proof.Machine
end

