-- ==== Sys2Proof/Certificates/Slice0/Obligations.lean ====
section
/-! DEFINITION. The statements about the model, for the provers. Each docstring names the rule of the spec it formalises. -/

open Sys2Proof Sys2Proof.Machine

/-! ### Decoding and the step -/

/-- 30_encoding.md R71, R74: a word decodes to a command exactly when it is that command's word, so decoding and encoding
are inverse to each other on the legal words and no bit of a command is lost. -/
def Obligations.DecodeInvertsEncode : Prop :=
  ∀ (w : Word) (i : Instr), decode w = some i ↔ w = encode i

/-- 30_encoding.md R70: a word is illegal exactly when its OP is outside 0x01..0x09 or a reserved bit is set. -/
def Obligations.DecodeRejectsExactlyIllegalWords : Prop :=
  ∀ w : Word, decode w = none ↔ IllegalWord w

/-- 30_encoding.md R71 in match/mask form: a word decodes to the command with opcode k exactly when its bits under the mask
0xFFFFF8FF are k. -/
def Obligations.DecodeMatchesMask : Prop :=
  ∀ w : Word, ((decode w).map fun i => i.opcode.toNat) =
    if 1 ≤ (w &&& 0xFFFFF8FF).toNat ∧ (w &&& 0xFFFFF8FF).toNat ≤ 9 then some (w &&& 0xFFFFF8FF).toNat else none

/-- 30_encoding.md section 6 and 95_test_vectors.md 3.1: words written out from the encoding. -/
def Obligations.WrittenWordsDecode : Prop :=
  decode 0x00000001 = some (.norm false false false) ∧
  decode 0x00000402 = some (.modinv false false true) ∧
  decode 0x00000003 = some (.mvmul false false false) ∧
  decode 0x00000304 = some (.mvmulm true true false) ∧
  decode 0x00000105 = some (.det true false false) ∧
  decode 0x00000006 = some (.detm false false false) ∧
  decode 0x00000107 = some (.adj true false false) ∧
  decode 0x00000508 = some (.smulm true false true) ∧
  decode 0x00000009 = some (.minv false false false) ∧
  decode 0x00000021 = none ∧ decode 0x00000801 = none ∧ decode 0x0000000A = none

/-- 30_encoding.md R74: the word of a mnemonic with selects is `op | (msel << 8) | (vsel << 9) | (ssel << 10)`; the
assembler writes exactly the commands that name no ignored select. -/
def Obligations.AssembledWordIsTheFormula : Prop :=
  ∀ i : Instr,
    (encode i).toNat = i.opcode.toNat + 256 * i.msel.toNat + 512 * i.vsel.toNat + 1024 * i.ssel.toNat ∧
    ((asmText i).isSome = true ↔
      ((i.msel = true → i.readsM = true) ∧ (i.vsel = true → i.readsV = true) ∧ (i.ssel = true → i.readsS = true))) ∧
    (∀ text, asmText i = some text → assemble text = some (encode i))

/-- 30_encoding.md R75: a value of a host program line is refused outside [−2^31, 2^32), and its word is the sign or zero
extension of the value. -/
def Obligations.AssembledValueIsItsWord : Prop :=
  ∀ v : Int,
    (-2 ^ 31 ≤ v → v < 0 → ∃ w, asmValue v = some w ∧ w.toInt = v) ∧
    (0 ≤ v → v < 2 ^ 32 → ∃ w, asmValue v = some w ∧ (w.toNat : Int) = v) ∧
    (v < -2 ^ 31 ∨ 2 ^ 32 ≤ v → asmValue v = none)

/-- 30_encoding.md R76: the expansions of the pseudo-instructions, as accesses (offset, data). -/
def Obligations.PseudoInstructionsExpand : Prop :=
  lineOps .ack = some [.w 0x008 0x2] ∧ lineOps .clrovr = some [.w 0x008 0x8] ∧ lineOps .srst = some [.w 0x00C 0x2] ∧
  lineOps (.rdraw .rW0) = some [.r 0x060, .r 0x064, .r 0x068] ∧ lineOps (.rdraw .rW1) = some [.r 0x06C, .r 0x070, .r 0x074] ∧
  lineOps (.rdraw .rDet) = some [.r 0x078, .r 0x07C, .r 0x080] ∧
  (∀ k, lineOps (.wait k) = some (List.replicate (k + 1) (.r 0x008))) ∧
  (∀ i k, i.wf = true → lineOps (.run i k) = some (.w 0x004 (encode i) :: List.replicate (k + 1) (.r 0x008)))

/-- 40_command_cycle.md R81 to R83: CORE's turn, with a command running and reset not asserted, decodes the latched word
and runs it; around it the step takes the turn off the list and clears the port's response. When the list is used up, the
turn is CORE's (entry 2). -/
def Obligations.StepRunsDecodedCommand : Prop :=
  ∀ (s : State) (i : Instr), s.rstIn = false → s.status.busy = true → decode s.latch.cmd = some i →
    (∀ rest, s.turns = .core :: rest → step s = exec i { s with turns := rest, response := none }) ∧
    (s.turns = [] → step s = exec i { s with response := none })

/-- 40_command_cycle.md R81: CORE has a step exactly when BUSY = 1. With BUSY = 0 its turn leaves the core as it is (entry 3). -/
def Obligations.CoreHasNoStepWhenIdle : Prop :=
  ∀ (s : State) (rest : List Turn), s.rstIn = false → s.status.busy = false → s.turns = .core :: rest →
    step s = .next { s with turns := rest, response := none }

/-- 40_command_cycle.md R94: no step of any agent ends in a fault or a refusal. -/
def Obligations.EveryStepAnswersNext : Prop :=
  ∀ s : State, ∃ t, step s = .next t

/-! ### What each command computes -/

/-- NORM (41_modular_arithmetic.md R96): R_S becomes the residue of S, nothing else changes but STATUS. -/
def Obligations.NormWritesResidue : Prop :=
  ∀ (m v x : Bool) (s : State), s.latch.Fits → 2 ≤ s.latch.n →
    ∃ t w, exec (.norm m v x) s = .next t ∧ Succeeded s t ∧ CommandFrame s t ∧
      t.results = { s.results with rS := w } ∧ IsResidueOf w s.latch.s s.latch.n

/-- MODINV (41_modular_arithmetic.md R100): for every S and every N ≥ 2 with gcd(norm(S, N), N) = 1, MODINV succeeds and
(norm(S, N) · R_S) mod N = 1, with R_S in [0, N) (R103); nothing else changes but STATUS. -/
def Obligations.ModinvWritesInverse : Prop :=
  ∀ (m v x : Bool) (s : State), s.latch.Fits → 2 ≤ s.latch.n → Int.gcd (s.latch.s % s.latch.n) s.latch.n = 1 →
    ∃ t w, exec (.modinv m v x) s = .next t ∧ Succeeded s t ∧ CommandFrame s t ∧
      t.results = { s.results with rS := w } ∧ (w.toNat : Int) < s.latch.n ∧
      ((s.latch.s % s.latch.n) * w.toNat) % s.latch.n = 1

/-- MVMUL (42_matrix_ops.md R107, R106): R_W0 and R_W1 hold the exact rows of M · V, whatever N is; nothing else changes
but STATUS. -/
def Obligations.MvmulWritesExactProduct : Prop :=
  ∀ (m v x : Bool) (s : State), s.latch.Fits →
    ∃ t w0 w1, exec (.mvmul m v x) s = .next t ∧ Succeeded s t ∧ CommandFrame s t ∧
      t.results = { s.results with rW0 := w0, rW1 := w1 } ∧
      w0.toInt = s.latch.m.m00 * s.latch.v.v0 + s.latch.m.m01 * s.latch.v.v1 ∧
      w1.toInt = s.latch.m.m10 * s.latch.v.v0 + s.latch.m.m11 * s.latch.v.v1

/-- MVMULM (42_matrix_ops.md R108): the exact rows in R_W0, R_W1 and their residues in R_V0, R_V1; nothing else changes
but STATUS. -/
def Obligations.MvmulmWritesProductAndResidues : Prop :=
  ∀ (m v x : Bool) (s : State), s.latch.Fits → 2 ≤ s.latch.n →
    ∃ t w0 w1 r0 r1, exec (.mvmulm m v x) s = .next t ∧ Succeeded s t ∧ CommandFrame s t ∧
      t.results = { s.results with rW0 := w0, rW1 := w1, rV := { v0 := r0, v1 := r1 } } ∧
      w0.toInt = s.latch.m.m00 * s.latch.v.v0 + s.latch.m.m01 * s.latch.v.v1 ∧
      w1.toInt = s.latch.m.m10 * s.latch.v.v0 + s.latch.m.m11 * s.latch.v.v1 ∧
      IsResidueOf r0 w0.toInt s.latch.n ∧ IsResidueOf r1 w1.toInt s.latch.n

/-- DET (42_matrix_ops.md R110): R_DET holds the exact determinant, whatever N is; nothing else changes but STATUS. -/
def Obligations.DetWritesExactDeterminant : Prop :=
  ∀ (m v x : Bool) (s : State), s.latch.Fits →
    ∃ t d, exec (.det m v x) s = .next t ∧ Succeeded s t ∧ CommandFrame s t ∧
      t.results = { s.results with rDet := d } ∧
      d.toInt = s.latch.m.m00 * s.latch.m.m11 - s.latch.m.m01 * s.latch.m.m10

/-- DETM (42_matrix_ops.md R111): the exact determinant in R_DET and its residue in R_S, also where it has no inverse;
nothing else changes but STATUS. -/
def Obligations.DetmWritesDeterminantAndResidue : Prop :=
  ∀ (m v x : Bool) (s : State), s.latch.Fits → 2 ≤ s.latch.n →
    ∃ t d w, exec (.detm m v x) s = .next t ∧ Succeeded s t ∧ CommandFrame s t ∧
      t.results = { s.results with rDet := d, rS := w } ∧
      d.toInt = s.latch.m.m00 * s.latch.m.m11 - s.latch.m.m01 * s.latch.m.m10 ∧ IsResidueOf w d.toInt s.latch.n

/-- ADJ (42_matrix_ops.md R113, R114): R_M is the adjugate, each entry a residue, and M times it is det(M) · I mod N;
nothing else changes but STATUS. -/
def Obligations.AdjWritesAdjugate : Prop :=
  ∀ (m v x : Bool) (s : State), s.latch.Fits → 2 ≤ s.latch.n →
    ∃ t r, exec (.adj m v x) s = .next t ∧ Succeeded s t ∧ CommandFrame s t ∧
      t.results = { s.results with rM := r } ∧
      IsResidueOf r.m00 s.latch.m.m11 s.latch.n ∧ IsResidueOf r.m01 (-s.latch.m.m01) s.latch.n ∧
      IsResidueOf r.m10 (-s.latch.m.m10) s.latch.n ∧ IsResidueOf r.m11 s.latch.m.m00 s.latch.n ∧
      (s.latch.m.m00 * r.m00.toNat + s.latch.m.m01 * r.m10.toNat) % s.latch.n =
        (s.latch.m.m00 * s.latch.m.m11 - s.latch.m.m01 * s.latch.m.m10) % s.latch.n ∧
      (s.latch.m.m00 * r.m01.toNat + s.latch.m.m01 * r.m11.toNat) % s.latch.n = 0 ∧
      (s.latch.m.m10 * r.m00.toNat + s.latch.m.m11 * r.m10.toNat) % s.latch.n = 0 ∧
      (s.latch.m.m10 * r.m01.toNat + s.latch.m.m11 * r.m11.toNat) % s.latch.n =
        (s.latch.m.m00 * s.latch.m.m11 - s.latch.m.m01 * s.latch.m.m10) % s.latch.n

/-- SMULM (42_matrix_ops.md R115): R_M is S times the matrix, each entry a residue of the exact product; nothing else
changes but STATUS. -/
def Obligations.SmulmWritesScaledMatrix : Prop :=
  ∀ (m v x : Bool) (s : State), s.latch.Fits → 2 ≤ s.latch.n →
    ∃ t r, exec (.smulm m v x) s = .next t ∧ Succeeded s t ∧ CommandFrame s t ∧
      t.results = { s.results with rM := r } ∧
      IsResidueOf r.m00 (s.latch.m.m00 * s.latch.s) s.latch.n ∧ IsResidueOf r.m01 (s.latch.m.m01 * s.latch.s) s.latch.n ∧
      IsResidueOf r.m10 (s.latch.m.m10 * s.latch.s) s.latch.n ∧ IsResidueOf r.m11 (s.latch.m.m11 * s.latch.s) s.latch.n

/-- MINV (42_matrix_ops.md R120, R117): for every M and N ≥ 2 with gcd(det(M), N) = 1, MINV succeeds; R_M is a two-sided
inverse of M mod N, with entries the residues of adj(M) · R_S (R118), R_S is the inverse of the determinant, R_DET the
exact determinant; nothing else changes but STATUS. (That R_M · M is the identity too is marked general knowledge in R120,
and the entry clauses rest on R118, which the spec derives.) -/
def Obligations.MinvWritesModularInverse : Prop :=
  ∀ (m v x : Bool) (s : State), s.latch.Fits → 2 ≤ s.latch.n →
    Int.gcd (s.latch.m.m00 * s.latch.m.m11 - s.latch.m.m01 * s.latch.m.m10) s.latch.n = 1 →
    ∃ t d w r, exec (.minv m v x) s = .next t ∧ Succeeded s t ∧ CommandFrame s t ∧
      t.results = { s.results with rDet := d, rS := w, rM := r } ∧
      d.toInt = s.latch.m.m00 * s.latch.m.m11 - s.latch.m.m01 * s.latch.m.m10 ∧
      (w.toNat : Int) < s.latch.n ∧ (d.toInt * w.toNat) % s.latch.n = 1 ∧
      IsResidueOf r.m00 (s.latch.m.m11 * w.toNat) s.latch.n ∧ IsResidueOf r.m01 (-s.latch.m.m01 * w.toNat) s.latch.n ∧
      IsResidueOf r.m10 (-s.latch.m.m10 * w.toNat) s.latch.n ∧ IsResidueOf r.m11 (s.latch.m.m00 * w.toNat) s.latch.n ∧
      (s.latch.m.m00 * r.m00.toNat + s.latch.m.m01 * r.m10.toNat) % s.latch.n = 1 ∧
      (s.latch.m.m00 * r.m01.toNat + s.latch.m.m01 * r.m11.toNat) % s.latch.n = 0 ∧
      (s.latch.m.m10 * r.m00.toNat + s.latch.m.m11 * r.m10.toNat) % s.latch.n = 0 ∧
      (s.latch.m.m10 * r.m01.toNat + s.latch.m.m11 * r.m11.toNat) % s.latch.n = 1 ∧
      (r.m00.toNat * s.latch.m.m00 + r.m01.toNat * s.latch.m.m10) % s.latch.n = 1 ∧
      (r.m00.toNat * s.latch.m.m01 + r.m01.toNat * s.latch.m.m11) % s.latch.n = 0 ∧
      (r.m10.toNat * s.latch.m.m00 + r.m11.toNat * s.latch.m.m10) % s.latch.n = 0 ∧
      (r.m10.toNat * s.latch.m.m01 + r.m11.toNat * s.latch.m.m11) % s.latch.n = 1

/-- 41_modular_arithmetic.md R99: the outcome of `eea(a0, N)` is the unique inverse in [0, N) when gcd(a0, N) = 1, and
`noinv` otherwise. -/
def Obligations.EuclidOutcomeIsTheInverseOrNone : Prop :=
  ∀ a0 n : Int, 0 ≤ a0 → a0 < n → 2 ≤ n →
    (Int.gcd a0 n = 1 → ∃ x, eea a0 n = some x ∧ 0 ≤ x ∧ x < n ∧ (a0 * x) % n = 1 ∧
      ∀ y, 0 ≤ y → y < n → (a0 * y) % n = 1 → y = x) ∧
    (Int.gcd a0 n ≠ 1 → eea a0 n = none)

/-! ### Errors -/

/-- 60_exceptions.md R127 and 42_matrix_ops.md R119: with N ≥ 2, MODINV fails with NO_INVERSE exactly when
gcd(norm(S, N), N) ≠ 1, and MINV exactly when gcd(norm(det(M), N), N) ≠ 1, which equals gcd(det(M), N) ≠ 1; the failure
writes no result register and leaves the operand registers and the snapshot as they are. -/
def Obligations.NoInverseExactlyWhenGcdIsNotOne : Prop :=
  ∀ (m v x : Bool) (s : State), 2 ≤ s.latch.n →
    (∃ t, exec (.modinv m v x) s = .next t ∧ CommandFrame s t ∧
      (t.status.errcode = 1 ↔ Int.gcd (s.latch.s % s.latch.n) s.latch.n ≠ 1) ∧
      (Int.gcd (s.latch.s % s.latch.n) s.latch.n ≠ 1 → FailedWith 1 s t)) ∧
    (∃ t, exec (.minv m v x) s = .next t ∧ CommandFrame s t ∧
      (t.status.errcode = 1 ↔
        Int.gcd ((s.latch.m.m00 * s.latch.m.m11 - s.latch.m.m01 * s.latch.m.m10) % s.latch.n) s.latch.n ≠ 1) ∧
      (t.status.errcode = 1 ↔
        Int.gcd (s.latch.m.m00 * s.latch.m.m11 - s.latch.m.m01 * s.latch.m.m10) s.latch.n ≠ 1) ∧
      (Int.gcd (s.latch.m.m00 * s.latch.m.m11 - s.latch.m.m01 * s.latch.m.m10) s.latch.n ≠ 1 → FailedWith 1 s t))

/-- 60_exceptions.md R128: every command that reads N fails with BAD_MODULUS exactly when sint32(MOD) < 2 at its launch,
whatever its select bits and operands. -/
def Obligations.BadModulusExactlyBelowTwo : Prop :=
  ∀ (s : State) (i : Instr), i.readsN = true →
    ∃ t, exec i (launch (encode i) s) = .next t ∧ CommandFrame (launch (encode i) s) t ∧
      (s.operands.mod.toInt < 2 → FailedWith 2 (launch (encode i) s) t) ∧
      (2 ≤ s.operands.mod.toInt → t.status.errcode ≠ 2)

/-- 40_command_cycle.md R88: MVMUL and DET complete with ERR = 0 for every MOD and every operand. -/
def Obligations.MvmulAndDetNeverFail : Prop :=
  ∀ (m v x : Bool) (s : State),
    (∃ t, exec (.mvmul m v x) (launch (encode (.mvmul m v x)) s) = .next t ∧
      Succeeded (launch (encode (.mvmul m v x)) s) t) ∧
    (∃ t, exec (.det m v x) (launch (encode (.det m v x)) s) = .next t ∧
      Succeeded (launch (encode (.det m v x)) s) t)

/-- 60_exceptions.md R129, R133: every illegal word, whatever N is, completes with ILLEGAL_CMD, writes no result register
and leaves its bits [4:0] in LASTOP. -/
def Obligations.IllegalWordFailsWithIllegalCmd : Prop :=
  ∀ (s : State) (d : Word), IllegalWord d →
    ∃ t, completion (launch d s) = .next t ∧ FailedWith 3 (launch d s) t ∧ CommandFrame (launch d s) t ∧
      t.status.lastop = d.extractLsb' 0 5

/-- 40_command_cycle.md R87: a failed command writes no result register; only STATUS changes. -/
def Obligations.FailedCommandWritesNoResult : Prop :=
  ∀ s t : State, completion s = .next t → t.status.err = true → t.results = s.results ∧ CommandFrame s t

/-- 40_command_cycle.md R85: the outcome of a command is a function of LATCH alone. Two completions from the same LATCH
show the same error, and each register of the map other than STATUS is either written with the same value by both or left
alone by both. -/
def Obligations.OutcomeDependsOnLatchAlone : Prop :=
  ∀ s s' t t' : State, s.latch = s'.latch → completion s = .next t → completion s' = .next t' →
    t.status.err = t'.status.err ∧ t.status.errcode = t'.status.errcode ∧
    ∀ r : Reg, r ≠ .status → readReg t r = readReg t' r ∨ (readReg t r = readReg s r ∧ readReg t' r = readReg s' r)

/-- 40_command_cycle.md R82 and 60_exceptions.md R125: whatever its outcome, a completion clears BUSY and sets DONE, keeps
OVR and LASTOP, and shows ERR = 1 exactly with a code that is not 0 and at most 3. -/
def Obligations.CompletionEndsTheCommand : Prop :=
  ∀ s : State, ∃ t, completion s = .next t ∧ CommandFrame s t ∧
    t.status.busy = false ∧ t.status.done = true ∧ t.status.ovr = s.status.ovr ∧ t.status.lastop = s.status.lastop ∧
    (t.status.err = true ↔ t.status.errcode ≠ 0) ∧ t.status.errcode.toNat ≤ 3

/-- 30_encoding.md R68, 10_state.md R35: a completion leaves every register of the map as it was, read as the host reads it,
but STATUS and the result registers its command names; NORM, MODINV (one scalar register) and MVMUL, MVMULM (the vector
registers). -/
def Obligations.ScalarAndVectorCommandsKeepOtherRegisters : Prop :=
  ∀ (m v x : Bool) (s t : State) (r : Reg), r ≠ .status →
    (exec (.norm m v x) s = .next t → r ≠ .rS → readReg t r = readReg s r) ∧
    (exec (.modinv m v x) s = .next t → r ≠ .rS → readReg t r = readReg s r) ∧
    (exec (.mvmul m v x) s = .next t → r ∉ [.rW0w0, .rW0w1, .rW0w2, .rW1w0, .rW1w1, .rW1w2] → readReg t r = readReg s r) ∧
    (exec (.mvmulm m v x) s = .next t → r ∉ [.rW0w0, .rW0w1, .rW0w2, .rW1w0, .rW1w1, .rW1w2, .rV0, .rV1] →
      readReg t r = readReg s r)

/-- 30_encoding.md R68, 10_state.md R35: the same for DET, DETM, ADJ, SMULM and MINV. -/
def Obligations.DeterminantAndMatrixCommandsKeepOtherRegisters : Prop :=
  ∀ (m v x : Bool) (s t : State) (r : Reg), r ≠ .status →
    (exec (.det m v x) s = .next t → r ∉ [.rDetw0, .rDetw1, .rDetw2] → readReg t r = readReg s r) ∧
    (exec (.detm m v x) s = .next t → r ∉ [.rDetw0, .rDetw1, .rDetw2, .rS] → readReg t r = readReg s r) ∧
    (exec (.adj m v x) s = .next t → r ∉ [.rM00, .rM01, .rM10, .rM11] → readReg t r = readReg s r) ∧
    (exec (.smulm m v x) s = .next t → r ∉ [.rM00, .rM01, .rM10, .rM11] → readReg t r = readReg s r) ∧
    (exec (.minv m v x) s = .next t → r ∉ [.rDetw0, .rDetw1, .rDetw2, .rS, .rM00, .rM01, .rM10, .rM11] →
      readReg t r = readReg s r)

/-! ### The host port -/

/-- 40_command_cycle.md R78, R79: a host write of d to CMD while BUSY = 0 copies every operand into LATCH by the select
bits of d and sets the flags of a running command; OVR, CTRL, the operand and the result registers are unchanged. -/
def Obligations.CmdWriteLaunches : Prop :=
  ∀ (s : State) (d : Word) (rest : List Turn),
    s.rstIn = false → s.status.busy = false → s.turns = .host (.write (Config.base + 0x004) 4 d) :: rest →
    ∃ t, step s = .next t ∧ t.response = some .okWrite ∧ t.turns = rest ∧
      t.status = { busy := true, done := false, err := false, ovr := s.status.ovr, errcode := 0,
                   lastop := d.extractLsb' 0 5 } ∧
      t.operands = s.operands ∧ t.results = s.results ∧ t.ie = s.ie ∧ t.rstIn = false ∧ t.irq = false ∧
      t.latch.cmd = d ∧ t.latch.n = s.operands.mod.toInt ∧
      t.latch.s = (if d.getLsbD 10 = true then s.results.rS.toInt else s.operands.a.toInt) ∧
      t.latch.m.m00 = (if d.getLsbD 8 = true then s.results.rM.m00.toInt else s.operands.m.m00.toInt) ∧
      t.latch.m.m01 = (if d.getLsbD 8 = true then s.results.rM.m01.toInt else s.operands.m.m01.toInt) ∧
      t.latch.m.m10 = (if d.getLsbD 8 = true then s.results.rM.m10.toInt else s.operands.m.m10.toInt) ∧
      t.latch.m.m11 = (if d.getLsbD 8 = true then s.results.rM.m11.toInt else s.operands.m.m11.toInt) ∧
      t.latch.v.v0 = (if d.getLsbD 9 = true then s.results.rV.v0.toInt else s.operands.v.v0.toInt) ∧
      t.latch.v.v1 = (if d.getLsbD 9 = true then s.results.rV.v1.toInt else s.operands.v.v1.toInt)

/-- 40_command_cycle.md R84: a host write to CMD while BUSY = 1 sets OVR and discards the word; everything else of the core
is unchanged. -/
def Obligations.CmdWriteWhileBusyIsOverrun : Prop :=
  ∀ (s : State) (d : Word) (rest : List Turn),
    s.rstIn = false → s.status.busy = true → s.turns = .host (.write (Config.base + 0x004) 4 d) :: rest →
    step s = .next { s with status := { s.status with ovr := true }, turns := rest, response := some .okWrite }

/-- 20_memory.md R47, 10_state.md section 2 and R34: an aligned 4-byte read of a mapped offset returns the register there
(CMD reads 0, STATUS and CTRL their fields, a raw register its three words, least significant first), and changes nothing
else. -/
def Obligations.ReadReturnsTheRegisterAtItsOffset : Prop :=
  ∀ (s : State) (rest : List Turn), s.rstIn = false →
    ∀ p ∈ [(0x000, (0x4D4D4932 : Word)), (0x004, 0), (0x008, s.status.word), (0x00C, if s.ie then 1 else 0),
           (0x010, s.operands.mod), (0x014, s.operands.a), (0x018, s.operands.m.m00), (0x01C, s.operands.m.m01),
           (0x020, s.operands.m.m10), (0x024, s.operands.m.m11), (0x028, s.operands.v.v0), (0x02C, s.operands.v.v1)] ++
          [(0x040, s.results.rS), (0x044, s.results.rM.m00), (0x048, s.results.rM.m01), (0x04C, s.results.rM.m10),
           (0x050, s.results.rM.m11), (0x054, s.results.rV.v0), (0x058, s.results.rV.v1)] ++
          [(0x060, s.results.rW0.extractLsb' 0 32), (0x064, s.results.rW0.extractLsb' 32 32),
           (0x068, s.results.rW0.extractLsb' 64 32), (0x06C, s.results.rW1.extractLsb' 0 32),
           (0x070, s.results.rW1.extractLsb' 32 32), (0x074, s.results.rW1.extractLsb' 64 32),
           (0x078, s.results.rDet.extractLsb' 0 32), (0x07C, s.results.rDet.extractLsb' 32 32),
           (0x080, s.results.rDet.extractLsb' 64 32)],
      s.turns = .host (.read (Config.base + p.1) 4) :: rest →
      step s = .next { s with turns := rest, response := some (.okRead p.2) }

/-- 20_memory.md R45, R46, R50, R51: a misaligned access, an access of another size than 4 and an access to an unmapped offset
of the window get `buserror` and change no state. (The first two are said of every address: for one outside the window they
rest on entry 10, which is the model's reading, since R43 leaves its routing to the platform.) -/
def Obligations.BadAccessGetsBusError : Prop :=
  ∀ (s : State) (a : Access) (rest : List Turn) (addr size : Nat),
    s.rstIn = false → s.turns = .host a :: rest →
    (a = .read addr size ∨ ∃ d, a = .write addr size d) →
    (addr % 4 ≠ 0 ∨ size ≠ 4 ∨
      (∃ off ∈ [0x030, 0x034, 0x038, 0x03C, 0x05C], addr = Config.base + off) ∨
      (Config.base + 0x084 ≤ addr ∧ addr < Config.base + 0x100)) →
    step s = .next { s with turns := rest, response := some .busError }

/-- 20_memory.md R48, 10_state.md R20: a write to an operand register puts the word there, at any time, and changes nothing
else; so a running command keeps its operands (70_reset_and_hazards.md R150). -/
def Obligations.OperandWriteChangesOnlyItsRegister : Prop :=
  ∀ (s : State) (d : Word) (rest : List Turn) (r : Reg),
    r ∈ [Reg.mod, .a, .m00, .m01, .m10, .m11, .v0, .v1] → s.rstIn = false →
    s.turns = .host (.write (Config.base + r.offset) 4 d) :: rest →
    ∃ t, step s = .next t ∧ readReg t r = d ∧ (∀ r', r' ≠ r → readReg t r' = readReg s r') ∧
      t = { s with operands := t.operands, turns := rest, response := some .okWrite }

/-- 20_memory.md R49: a write to a read-only register returns ok and changes no state. -/
def Obligations.ReadOnlyWriteIsIgnored : Prop :=
  ∀ (s : State) (d : Word) (rest : List Turn) (off : Nat),
    off ∈ [0x000, 0x040, 0x044, 0x048, 0x04C, 0x050, 0x054, 0x058, 0x060, 0x064, 0x068, 0x06C, 0x070, 0x074, 0x078,
           0x07C, 0x080] →
    s.rstIn = false → s.turns = .host (.write (Config.base + off) 4 d) :: rest →
    step s = .next { s with turns := rest, response := some .okWrite }

/-- 10_state.md R23: the fields of STATUS stand at their bits with the others 0, and a host write of d to STATUS clears DONE
if d[1] = 1 and OVR if d[3] = 1, and does nothing else. -/
def Obligations.StatusReadsFieldsAndClearsByWritingOne : Prop :=
  ∀ s : State,
    (s.status.word.getLsbD 0 = s.status.busy ∧ s.status.word.getLsbD 1 = s.status.done ∧
      s.status.word.getLsbD 2 = s.status.err ∧ s.status.word.getLsbD 3 = s.status.ovr ∧
      s.status.word.extractLsb' 4 4 = s.status.errcode ∧ s.status.word.extractLsb' 8 5 = s.status.lastop ∧
      s.status.word.extractLsb' 13 19 = 0) ∧
    ∀ (d : Word) (rest : List Turn), s.rstIn = false → s.turns = .host (.write (Config.base + 0x008) 4 d) :: rest →
      step s = .next { s with
        status := { s.status with
          done := if d.getLsbD 1 = true then false else s.status.done
          ovr := if d.getLsbD 3 = true then false else s.status.ovr }
        turns := rest
        response := some .okWrite }

/-- 10_state.md R30: a write of d to CTRL with d[1] = 0 makes IE d[0] and nothing else; with d[1] = 1 it is the soft reset,
whatever d[0] is. CTRL reads as IE. -/
def Obligations.CtrlWriteSetsEnableOrResets : Prop :=
  ∀ (s : State) (d : Word) (rest : List Turn),
    s.rstIn = false → s.turns = .host (.write (Config.base + 0x00C) 4 d) :: rest →
    readReg s .ctrl = (if s.ie then 1 else 0) ∧
    (d.getLsbD 1 = false → step s = .next { s with ie := d.getLsbD 0, turns := rest, response := some .okWrite }) ∧
    (d.getLsbD 1 = true → ∃ t, step s = .next t ∧ t.response = some .okWrite ∧ t.turns = rest ∧ t.rstIn = false ∧
      t.ie = false ∧ (∀ r : Reg, r ≠ .id → readReg t r = 0) ∧ readReg t .id = 0x4D4D4932)

/-- 60_exceptions.md R131: IRQ is the level IE and DONE; an acknowledge, a launch, masking and a reset each drop it, an
overrun leaves it, and every completion raises it when IE = 1. -/
def Obligations.InterruptRisesOnCompletionAndFalls : Prop :=
  ∀ s : State,
    (s.irq = true ↔ s.ie = true ∧ s.status.done = true) ∧
    (∀ d, d.getLsbD 1 = true → (acknowledge d s).irq = false) ∧
    (∀ d, (launch d s).irq = false) ∧
    (∀ d, d.getLsbD 0 = false → (writeCtrl d s).irq = false) ∧
    (resetRegs s).irq = false ∧ (overrun s).irq = s.irq ∧
    (∀ t, completion s = .next t → t.irq = s.ie)

/-- 20_memory.md R44: byte k of the word at BASE + off is bits [8k+7:8k] of the register there: little-endian. -/
def Obligations.WindowBytesAreLittleEndian : Prop :=
  ∀ (s : State) (r : Reg),
    ∃ b0 b1 b2 b3, windowByte s (Config.base + r.offset) = some b0 ∧ windowByte s (Config.base + r.offset + 1) = some b1 ∧
      windowByte s (Config.base + r.offset + 2) = some b2 ∧ windowByte s (Config.base + r.offset + 3) = some b3 ∧
      readReg s r = b3 ++ b2 ++ b1 ++ b0

/-- 20_memory.md R53: a host that reads the three words of a raw register with no completion between gets the three words of
one value, the register's. -/
def Obligations.RawReadReturnsOneValue : Prop :=
  ∀ (s : State) (x : RawReg) (rest : List Turn), s.rstIn = false →
    s.turns = hostTurns ((x.words.map fun r => PortOp.r r.offset)) ++ rest →
    let value : Raw := match x with
      | .rW0 => s.results.rW0
      | .rW1 => s.results.rW1
      | .rDet => s.results.rDet
    ∃ (t1 t2 t3 : State) (a b c : Word), step s = .next t1 ∧ step t1 = .next t2 ∧ step t2 = .next t3 ∧
      t1.response = some (.okRead a) ∧ t2.response = some (.okRead b) ∧ t3.response = some (.okRead c) ∧
      value = (c ++ b ++ a : BitVec (32 + 32 + 32))

/-! ### Reset -/

/-- 10_state.md R41, 70_reset_and_hazards.md R145: the reset state, as the host reads it: every register 0 but ID, IRQ 0, the
block idle. (LATCH and the Euclidean registers are the model's choice there, entries 5 and 6, and stand in no clause.) -/
def Obligations.ResetStateReadsZeroButId : Prop :=
  (∀ r : Reg, r ≠ .id → readReg State.reset r = 0) ∧ readReg State.reset .id = 0x4D4D4932 ∧ State.reset.irq = false ∧
    State.reset.status.busy = false ∧ State.reset.rstIn = false

/-- 70_reset_and_hazards.md R141: the step that asserts the reset input puts every register at its reset value, abandons a
running command, and while the input stays asserted it holds them there: a host access is not answered, CORE does nothing,
and the registers still read their reset values after each step. (How the model shows an unanswered access, and that CORE
is idle, is entry 11.) -/
def Obligations.HardwareResetHoldsTheRegisters : Prop :=
  ∀ (s : State) (u : Turn) (rest : List Turn),
    (s.turns = .resetOn :: rest → ∃ t, step s = .next t ∧ t.rstIn = true ∧ t.turns = rest ∧ t.response = none ∧
      t.status.busy = false ∧ t.irq = false ∧ (∀ r : Reg, r ≠ .id → readReg t r = 0) ∧ readReg t .id = 0x4D4D4932) ∧
    (s.rstIn = true → s.turns = u :: rest → u ≠ .resetOff →
      ∃ t, step s = .next t ∧ t.rstIn = true ∧ t.turns = rest ∧ t.status.busy = false ∧ t.irq = false ∧
        (∀ r : Reg, r ≠ .id → readReg t r = 0) ∧ readReg t .id = 0x4D4D4932 ∧
        (∀ a, u = .host a → t.response = some .unanswered))

/-- 70_reset_and_hazards.md R143: a reset while BUSY = 1 abandons the running command. After the soft reset, CORE's next turn
changes no register: nothing completes, no result is written, DONE and ERR stay 0. -/
def Obligations.SoftResetAbandonsTheCommand : Prop :=
  ∀ (s : State) (d : Word) (rest : List Turn), s.rstIn = false → s.status.busy = true → d.getLsbD 1 = true →
    s.turns = .host (.write (Config.base + 0x00C) 4 d) :: .core :: rest →
    ∃ t u, step s = .next t ∧ step t = .next u ∧ t.status.busy = false ∧ u.status = t.status ∧
      u.status.done = false ∧ u.status.err = false ∧ u.results = t.results ∧ u.operands = t.operands ∧
      (∀ r : Reg, r ≠ .id → readReg u r = 0)

/-! ### The whole machine -/

/-- The invariant holds in the reset state (10_state.md R41). -/
def Obligations.InvariantHoldsAtReset : Prop :=
  State.reset.Inv

/-- Every step of every agent keeps the invariant: BUSY and DONE never together (10_state.md R25), ERR exactly with a code
(R28) of at most 3 (60_exceptions.md R126), LASTOP the opcode of the running command (R29), residues below 2^31 in R_S, R_M
and R_V (41_modular_arithmetic.md R103), exact raw results (42_matrix_ops.md R105), and reset values while reset is
asserted. -/
def Obligations.EveryStepKeepsTheInvariant : Prop :=
  ∀ s t : State, s.Inv → step s = .next t → t.Inv

/-- 30_encoding.md R67: in a state that meets the invariant, a result register selected as an operand decodes to the residue
it holds, never to a negative number. -/
def Obligations.ChainedOperandIsTheResidue : Prop :=
  ∀ (s : State) (d : Word), s.Inv →
    (d.getLsbD 10 = true → (launch d s).latch.s = s.results.rS.toNat) ∧
    (d.getLsbD 9 = true → (launch d s).latch.v.v0 = s.results.rV.v0.toNat ∧ (launch d s).latch.v.v1 = s.results.rV.v1.toNat) ∧
    (d.getLsbD 8 = true → (launch d s).latch.m.m00 = s.results.rM.m00.toNat ∧
      (launch d s).latch.m.m01 = s.results.rM.m01.toNat ∧ (launch d s).latch.m.m10 = s.results.rM.m10.toNat ∧
      (launch d s).latch.m.m11 = s.results.rM.m11.toNat)

/-- 10_state.md R24: BUSY rises only by a launch (a CMD write with reset not asserted) and falls only by a completion or a
reset. (A used-up list of turns is CORE's turn by entry 2, and an asserted reset input holds the registers by entry 11.) -/
def Obligations.BusyMovesOnlyByLaunchCompletionReset : Prop :=
  ∀ s t : State, step s = .next t →
    (s.status.busy = false → t.status.busy = true →
      s.rstIn = false ∧ ∃ d rest, s.turns = .host (.write (Config.base + 0x004) 4 d) :: rest) ∧
    (s.status.busy = true → t.status.busy = false →
      (s.turns = [] ∨ (∃ rest, s.turns = .core :: rest) ∨ (∃ rest, s.turns = .resetOn :: rest) ∨ s.rstIn = true ∨
        ∃ d rest, d.getLsbD 1 = true ∧ s.turns = .host (.write (Config.base + 0x00C) 4 d) :: rest))

/-- 10_state.md R27: OVR is set by a CMD write while BUSY = 1 and by nothing else, and stays 1 until a write to STATUS with
bit 3 set or a reset. (An asserted reset input holds the registers by entry 11.) -/
def Obligations.OverrunFlagIsSticky : Prop :=
  ∀ s t : State, step s = .next t →
    (s.status.ovr = false → t.status.ovr = true →
      s.status.busy = true ∧ ∃ d rest, s.turns = .host (.write (Config.base + 0x004) 4 d) :: rest) ∧
    (s.status.ovr = true → t.status.ovr = false →
      ((∃ rest, s.turns = .resetOn :: rest) ∨ s.rstIn = true ∨
        (∃ d rest, d.getLsbD 3 = true ∧ s.turns = .host (.write (Config.base + 0x008) 4 d) :: rest) ∨
        ∃ d rest, d.getLsbD 1 = true ∧ s.turns = .host (.write (Config.base + 0x00C) 4 d) :: rest))

/-- 10_state.md R25: DONE rises only by a completion, and falls only by a launch, a write to STATUS with bit 1 set, or a
reset. (A used-up list of turns is CORE's turn by entry 2; reset holds by entry 11.) -/
def Obligations.DoneMovesOnlyByCompletionLaunchAckReset : Prop :=
  ∀ s t : State, step s = .next t →
    (s.status.done = false → t.status.done = true →
      s.status.busy = true ∧ s.rstIn = false ∧ (s.turns = [] ∨ ∃ rest, s.turns = .core :: rest)) ∧
    (s.status.done = true → t.status.done = false →
      ((∃ rest, s.turns = .resetOn :: rest) ∨ s.rstIn = true ∨
        (∃ d rest, s.turns = .host (.write (Config.base + 0x004) 4 d) :: rest ∧ t.status.busy = true) ∨
        (∃ d rest, d.getLsbD 1 = true ∧ s.turns = .host (.write (Config.base + 0x008) 4 d) :: rest) ∨
        ∃ d rest, d.getLsbD 1 = true ∧ s.turns = .host (.write (Config.base + 0x00C) 4 d) :: rest))

/-- 10_state.md R26, R28, R29: ERR and ERRCODE change only at a completion, a launch or a reset, so no acknowledge, read,
operand write or overrun touches them; LASTOP changes only at a launch or a reset. (A used-up list of turns is
CORE's turn by entry 2; reset holds by entry 11.) -/
def Obligations.ErrorReportMovesOnlyByCompletionLaunchReset : Prop :=
  ∀ s t : State, step s = .next t →
    let launches := s.status.busy = false ∧ ∃ d rest, s.turns = .host (.write (Config.base + 0x004) 4 d) :: rest
    let resets := (∃ rest, s.turns = .resetOn :: rest) ∨ s.rstIn = true ∨
      ∃ d rest, d.getLsbD 1 = true ∧ s.turns = .host (.write (Config.base + 0x00C) 4 d) :: rest
    let completes := s.status.busy = true ∧ (s.turns = [] ∨ ∃ rest, s.turns = .core :: rest)
    ((t.status.err ≠ s.status.err ∨ t.status.errcode ≠ s.status.errcode) → completes ∨ launches ∨ resets) ∧
    (t.status.lastop ≠ s.status.lastop → launches ∨ resets)

/-- 10_state.md R35: the result registers change only by a completion of a running command and by a reset, which leaves them 0;
no other step, of whatever agent, changes one. (A used-up list of turns is CORE's turn by entry 2; reset holds by entry 11.) -/
def Obligations.ResultsChangeOnlyByCompletionOrReset : Prop :=
  ∀ s t : State, step s = .next t → t.results ≠ s.results →
    (s.status.busy = true ∧ s.rstIn = false ∧ (s.turns = [] ∨ ∃ rest, s.turns = .core :: rest) ∧ t.status.err = false ∧
      t.status.done = true) ∨
    (t.results = ResultRegs.cleared ∧
      ((∃ rest, s.turns = .resetOn :: rest) ∨ s.rstIn = true ∨
        ∃ d rest, d.getLsbD 1 = true ∧ s.turns = .host (.write (Config.base + 0x00C) 4 d) :: rest))

/-- 10_state.md R20: the core never writes an operand register: one changes only by the host's write to it, to the word
written, or by a reset, which leaves them 0. (An asserted reset input holds the registers by entry 11.) -/
def Obligations.OperandsChangeOnlyByHostWriteOrReset : Prop :=
  ∀ (s t : State) (r : Reg), r ∈ [Reg.mod, .a, .m00, .m01, .m10, .m11, .v0, .v1] → step s = .next t →
    readReg t r ≠ readReg s r →
    (∃ d rest, s.turns = .host (.write (Config.base + r.offset) 4 d) :: rest ∧ readReg t r = d) ∨
    (readReg t r = 0 ∧ ((∃ rest, s.turns = .resetOn :: rest) ∨ s.rstIn = true ∨
      ∃ d rest, d.getLsbD 1 = true ∧ s.turns = .host (.write (Config.base + 0x00C) 4 d) :: rest))

/-- 40_command_cycle.md R79 and 70_reset_and_hazards.md R150: a host write to an operand register while a command runs does
not change its outcome: the write and the completion commute, up to the response the port shows last. -/
def Obligations.OperandWriteCommutesWithCompletion : Prop :=
  ∀ (s s' : State) (d : Word) (rest : List Turn) (r : Reg),
    r ∈ [Reg.mod, .a, .m00, .m01, .m10, .m11, .v0, .v1] → s.rstIn = false → s.status.busy = true →
    s.turns = .host (.write (Config.base + r.offset) 4 d) :: .core :: rest →
    s' = { s with turns := .core :: .host (.write (Config.base + r.offset) 4 d) :: rest } →
    ∃ t u t' u', step s = .next t ∧ step t = .next u ∧ step s' = .next t' ∧ step t' = .next u' ∧
      { u with response := none } = { u' with response := none }

/-- 40_command_cycle.md R80, R91, R92: every run ends, the host's last access performed and BUSY = 0. Whatever the turns and the
state, once they have all been taken and CORE has had one more turn, no turn is left and no command is pending. That CORE
moves when the list is used up is the model's weak fairness (entry 2). -/
def Obligations.EveryRunEnds : Prop :=
  ∀ s : State, ∃ t : State, Host.Core.run Sys2Proof.core (s.turns.length + 1) s = .next t ∧ t.turns = [] ∧ t.Ended

/-- 40_command_cycle.md R91, R81: a run that has ended, the host's last access performed and BUSY = 0, stays ended whatever turns of
CORE and ENV still come; and unless reset is asserted (R141), every register keeps the value the host could read. A run
with BUSY = 1 has not ended. -/
def Obligations.EndedRunStaysEnded : Prop :=
  ∀ s t : State, step s = .next t →
    (s.Ended → t.Ended ∧
      (s.rstIn = false → (∀ rest, s.turns ≠ .resetOn :: rest) → ∀ r : Reg, readReg t r = readReg s r)) ∧
    (s.status.busy = true → ¬s.Ended)

/-- 42_matrix_ops.md R121: MINV and then MINV m=R, under one modulus, returns norm(M, N) entrywise. -/
def Obligations.InverseOfInverseIsTheMatrix : Prop :=
  ∀ (s : State) (rest : List Turn), s.rstIn = false → s.status.busy = false → 2 ≤ s.operands.mod.toInt →
    Int.gcd (s.operands.m.m00.toInt * s.operands.m.m11.toInt - s.operands.m.m01.toInt * s.operands.m.m10.toInt)
      s.operands.mod.toInt = 1 →
    s.turns = cmdWrite 0x00000009 :: .core :: cmdWrite 0x00000109 :: .core :: rest →
    ∃ t : State, Host.Core.run Sys2Proof.core 4 s = .next t ∧ t.status.err = false ∧ t.status.done = true ∧
      IsResidueOf t.results.rM.m00 s.operands.m.m00.toInt s.operands.mod.toInt ∧
      IsResidueOf t.results.rM.m01 s.operands.m.m01.toInt s.operands.mod.toInt ∧
      IsResidueOf t.results.rM.m10 s.operands.m.m10.toInt s.operands.mod.toInt ∧
      IsResidueOf t.results.rM.m11 s.operands.m.m11.toInt s.operands.mod.toInt

/-- 42_matrix_ops.md R122: for every M invertible mod N, the program MVMULM, MINV, MVMULM m=R, v=R ends with R_V = norm(V, N),
which is V where V is a vector of residues. -/
def Obligations.EncryptThenDecryptReturnsTheBlock : Prop :=
  ∀ (s : State) (rest : List Turn), s.rstIn = false → s.status.busy = false → 2 ≤ s.operands.mod.toInt →
    Int.gcd (s.operands.m.m00.toInt * s.operands.m.m11.toInt - s.operands.m.m01.toInt * s.operands.m.m10.toInt)
      s.operands.mod.toInt = 1 →
    s.turns = cmdWrite 0x00000004 :: .core :: cmdWrite 0x00000009 :: .core :: cmdWrite 0x00000304 :: .core :: rest →
    ∃ t : State, Host.Core.run Sys2Proof.core 6 s = .next t ∧ t.status.err = false ∧ t.turns = rest ∧
      IsResidueOf t.results.rV.v0 s.operands.v.v0.toInt s.operands.mod.toInt ∧
      IsResidueOf t.results.rV.v1 s.operands.v.v1.toInt s.operands.mod.toInt ∧
      (0 ≤ s.operands.v.v0.toInt → s.operands.v.v0.toInt < s.operands.mod.toInt → t.results.rV.v0 = s.operands.v.v0) ∧
      (0 ≤ s.operands.v.v1.toInt → s.operands.v.v1.toInt < s.operands.mod.toInt → t.results.rV.v1 = s.operands.v.v1)

/-- 42_matrix_ops.md R111 and R117: DETM followed by MODINV s=R leaves in R_S what MINV leaves there, the inverse of the
determinant, and fails exactly where MINV fails. -/
def Obligations.DetmThenModinvAgreesWithMinv : Prop :=
  ∀ (s s' : State) (rest : List Turn), s.rstIn = false → s.status.busy = false →
    s.turns = cmdWrite 0x00000006 :: .core :: cmdWrite 0x00000402 :: .core :: rest →
    s' = { s with turns := cmdWrite 0x00000009 :: .core :: rest } → 2 ≤ s.operands.mod.toInt →
    ∃ t t' : State, Host.Core.run Sys2Proof.core 4 s = .next t ∧ Host.Core.run Sys2Proof.core 2 s' = .next t' ∧
      t.status.err = t'.status.err ∧ t.status.errcode = t'.status.errcode ∧
      (t'.status.err = false → t.results.rS = t'.results.rS)

/-- 30_encoding.md R69: a select bit is read only by the commands whose row names its operand. For every other command its
value changes nothing and the command is not illegal for it: two launched words that differ only there complete with the
same results and the same flags, and neither with ILLEGAL_CMD. -/
def Obligations.IgnoredSelectBitsChangeNothing : Prop :=
  ∀ (s : State) (i j : Instr), i.opcode = j.opcode →
    (i.readsM = true → i.msel = j.msel) → (i.readsV = true → i.vsel = j.vsel) → (i.readsS = true → i.ssel = j.ssel) →
    ∃ t u, completion (launch (encode i) s) = .next t ∧ completion (launch (encode j) s) = .next u ∧
      t.results = u.results ∧ t.status = u.status ∧ t.status.errcode ≠ 3 ∧ t.operands = u.operands ∧ t.ie = u.ie
end

