-- ==== Sys2Proof/Laws/State.lean ====
section
/-! SUPPORT. One lemma per field per update of State, true by rfl and tagged simp, so that no later proof unfolds an update. -/

namespace Sys2Proof.Machine

/-! ### stir -/

@[simp] theorem stir_operands (s : State) : s.stir.operands = s.operands := rfl
@[simp] theorem stir_status (s : State) : s.stir.status = s.status := rfl
@[simp] theorem stir_ie (s : State) : s.stir.ie = s.ie := rfl
@[simp] theorem stir_results (s : State) : s.stir.results = s.results := rfl
@[simp] theorem stir_latch (s : State) : s.stir.latch = s.latch := rfl
@[simp] theorem stir_rstIn (s : State) : s.stir.rstIn = s.rstIn := rfl
@[simp] theorem stir_response (s : State) : s.stir.response = s.response := rfl
@[simp] theorem stir_turns (s : State) : s.stir.turns = s.turns := rfl
@[simp] theorem stir_draws (s : State) : s.stir.draws = s.draws + 1 := rfl

/-! ### resetRegs -/

@[simp] theorem resetRegs_operands (s : State) : (resetRegs s).operands = OperandRegs.cleared := rfl
@[simp] theorem resetRegs_status (s : State) : (resetRegs s).status = Status.cleared := rfl
@[simp] theorem resetRegs_ie (s : State) : (resetRegs s).ie = false := rfl
@[simp] theorem resetRegs_results (s : State) : (resetRegs s).results = ResultRegs.cleared := rfl
@[simp] theorem resetRegs_rstIn (s : State) : (resetRegs s).rstIn = s.rstIn := rfl
@[simp] theorem resetRegs_response (s : State) : (resetRegs s).response = s.response := rfl
@[simp] theorem resetRegs_turns (s : State) : (resetRegs s).turns = s.turns := rfl

/-! ### launch and overrun -/

@[simp] theorem launch_operands (d : Word) (s : State) : (launch d s).operands = s.operands := rfl
@[simp] theorem launch_status (d : Word) (s : State) : (launch d s).status = s.status.launched d := rfl
@[simp] theorem launch_ie (d : Word) (s : State) : (launch d s).ie = s.ie := rfl
@[simp] theorem launch_results (d : Word) (s : State) : (launch d s).results = s.results := rfl
@[simp] theorem launch_latch (d : Word) (s : State) : (launch d s).latch = snapshot d s := rfl
@[simp] theorem launch_rstIn (d : Word) (s : State) : (launch d s).rstIn = s.rstIn := rfl
@[simp] theorem launch_response (d : Word) (s : State) : (launch d s).response = s.response := rfl
@[simp] theorem launch_turns (d : Word) (s : State) : (launch d s).turns = s.turns := rfl

@[simp] theorem overrun_operands (s : State) : (overrun s).operands = s.operands := rfl
@[simp] theorem overrun_status (s : State) : (overrun s).status = s.status.overrun := rfl
@[simp] theorem overrun_ie (s : State) : (overrun s).ie = s.ie := rfl
@[simp] theorem overrun_results (s : State) : (overrun s).results = s.results := rfl
@[simp] theorem overrun_latch (s : State) : (overrun s).latch = s.latch := rfl
@[simp] theorem overrun_rstIn (s : State) : (overrun s).rstIn = s.rstIn := rfl
@[simp] theorem overrun_turns (s : State) : (overrun s).turns = s.turns := rfl

/-! ### the end of a command -/

@[simp] theorem succeed_operands (w : Writes) (s : State) : (succeed w s).operands = s.operands := rfl
@[simp] theorem succeed_status (w : Writes) (s : State) : (succeed w s).status = s.status.succeeded := rfl
@[simp] theorem succeed_ie (w : Writes) (s : State) : (succeed w s).ie = s.ie := rfl
@[simp] theorem succeed_results (w : Writes) (s : State) : (succeed w s).results = w.commit s.results := rfl
@[simp] theorem succeed_latch (w : Writes) (s : State) : (succeed w s).latch = s.latch := rfl
@[simp] theorem succeed_rstIn (w : Writes) (s : State) : (succeed w s).rstIn = s.rstIn := rfl
@[simp] theorem succeed_response (w : Writes) (s : State) : (succeed w s).response = s.response := rfl
@[simp] theorem succeed_turns (w : Writes) (s : State) : (succeed w s).turns = s.turns := rfl

@[simp] theorem raiseError_operands (e : CmdError) (s : State) : (raiseError e s).operands = s.operands := rfl
@[simp] theorem raiseError_status (e : CmdError) (s : State) : (raiseError e s).status = s.status.failed e := rfl
@[simp] theorem raiseError_ie (e : CmdError) (s : State) : (raiseError e s).ie = s.ie := rfl
@[simp] theorem raiseError_results (e : CmdError) (s : State) : (raiseError e s).results = s.results := rfl
@[simp] theorem raiseError_latch (e : CmdError) (s : State) : (raiseError e s).latch = s.latch := rfl
@[simp] theorem raiseError_rstIn (e : CmdError) (s : State) : (raiseError e s).rstIn = s.rstIn := rfl
@[simp] theorem raiseError_response (e : CmdError) (s : State) : (raiseError e s).response = s.response := rfl
@[simp] theorem raiseError_turns (e : CmdError) (s : State) : (raiseError e s).turns = s.turns := rfl

@[simp] theorem acknowledge_operands (d : Word) (s : State) : (acknowledge d s).operands = s.operands := rfl
@[simp] theorem acknowledge_status (d : Word) (s : State) : (acknowledge d s).status = s.status.acknowledged d := rfl
@[simp] theorem acknowledge_ie (d : Word) (s : State) : (acknowledge d s).ie = s.ie := rfl
@[simp] theorem acknowledge_results (d : Word) (s : State) : (acknowledge d s).results = s.results := rfl
@[simp] theorem acknowledge_latch (d : Word) (s : State) : (acknowledge d s).latch = s.latch := rfl
@[simp] theorem acknowledge_rstIn (d : Word) (s : State) : (acknowledge d s).rstIn = s.rstIn := rfl
@[simp] theorem acknowledge_turns (d : Word) (s : State) : (acknowledge d s).turns = s.turns := rfl

/-! ### begin -/

@[simp] theorem begin_operands (s : State) (rest : List Turn) : (s.begin rest).operands = s.operands := rfl
@[simp] theorem begin_status (s : State) (rest : List Turn) : (s.begin rest).status = s.status := rfl
@[simp] theorem begin_ie (s : State) (rest : List Turn) : (s.begin rest).ie = s.ie := rfl
@[simp] theorem begin_results (s : State) (rest : List Turn) : (s.begin rest).results = s.results := rfl
@[simp] theorem begin_latch (s : State) (rest : List Turn) : (s.begin rest).latch = s.latch := rfl
@[simp] theorem begin_rstIn (s : State) (rest : List Turn) : (s.begin rest).rstIn = s.rstIn := rfl
@[simp] theorem begin_response (s : State) (rest : List Turn) : (s.begin rest).response = none := rfl
@[simp] theorem begin_turns (s : State) (rest : List Turn) : (s.begin rest).turns = rest := rfl

/-! ### committing results -/

@[simp] theorem commit_rS (w : Writes) (r : ResultRegs) : (w.commit r).rS = w.rS.getD r.rS := rfl
@[simp] theorem commit_rM (w : Writes) (r : ResultRegs) : (w.commit r).rM = w.rM.getD r.rM := rfl
@[simp] theorem commit_rV (w : Writes) (r : ResultRegs) : (w.commit r).rV = w.rV.getD r.rV := rfl
@[simp] theorem commit_rW0 (w : Writes) (r : ResultRegs) : (w.commit r).rW0 = (w.rW.map Prod.fst).getD r.rW0 := rfl
@[simp] theorem commit_rW1 (w : Writes) (r : ResultRegs) : (w.commit r).rW1 = (w.rW.map Prod.snd).getD r.rW1 := rfl
@[simp] theorem commit_rDet (w : Writes) (r : ResultRegs) : (w.commit r).rDet = w.rDet.getD r.rDet := rfl

end Sys2Proof.Machine
end

