-- ==== Sys2Proof/Laws/Words.lean ====
section
/-! SUPPORT. What the width operations do to an integer that fits, so that no later proof unfolds BitVec arithmetic. -/

namespace Sys2Proof.Machine

/-- A word's signed value lies in the 32-bit range (00_scope.md R12). -/
theorem sint32_range (w : Word) : -2 ^ 31 ≤ sint32 w ∧ sint32 w < 2 ^ 31 := by
  have h := w.isLt
  simp only [sint32, BitVec.toInt_eq_toNat_cond]
  split <;> omega

/-- The word of a residue below 2^31 is that residue (00_scope.md R12). -/
theorem zext32_toNat (v : Int) (h0 : 0 ≤ v) (h1 : v < 2 ^ 32) : ((zext32 v).toNat : Int) = v := by
  simp only [zext32, BitVec.toNat_ofInt]
  omega

/-- A residue below 2^31 decodes to itself (30_encoding.md R67). -/
theorem sint32_of_small (w : Word) (h : w.toNat < 2 ^ 31) : sint32 w = w.toNat := by
  simp only [sint32, BitVec.toInt_eq_toNat_cond]
  split <;> omega

/-- A 96-bit word holds every integer of magnitude below 2^95 exactly (10_state.md R34, 42_matrix_ops.md R105). -/
theorem sext96_toInt (v : Int) (h0 : -2 ^ 95 ≤ v) (h1 : v < 2 ^ 95) : (sext96 v).toInt = v := by
  simp only [sext96, BitVec.toInt_ofInt, Int.bmod]
  norm_num at *
  split <;> omega

/-- A residue lies in [0, N) (00_scope.md R13, R14). -/
theorem normZ_range (x n : Int) (hn : 0 < n) : 0 ≤ normZ x n ∧ normZ x n < n :=
  ⟨Int.emod_nonneg x (by omega), Int.emod_lt_of_pos x hn⟩

/-- The residue of a residue (41_modular_arithmetic.md R102). -/
@[simp] theorem normZ_normZ (x n : Int) : normZ (normZ x n) n = normZ x n := Int.emod_emod_of_dvd x (dvd_refl n)

/-- Reducing a factor first gives the same residue (41_modular_arithmetic.md R102, 42_matrix_ops.md R118). -/
theorem normZ_mul_left (x y n : Int) : normZ (normZ x n * y) n = normZ (x * y) n := by
  simp only [normZ, Int.mul_emod, Int.emod_emod]

/-- Reducing a summand first gives the same residue (41_modular_arithmetic.md R102). -/
theorem normZ_add_left (x y n : Int) : normZ (normZ x n + y) n = normZ (x + y) n := by
  simp only [normZ, Int.add_emod, Int.emod_emod]

/-- N divides what normalization took away (00_scope.md R14). -/
theorem dvd_sub_normZ (x n : Int) : n ∣ x - normZ x n := Int.dvd_self_sub_emod

end Sys2Proof.Machine
end

