-- ==== Sys2Proof/Laws/Exec.lean ====
section
/-! SUPPORT. Every meaning is one completion with the outcome of its command, a function of LATCH alone (40_command_cycle.md R85). -/

namespace Sys2Proof.Machine

/-- The outcome of a command on a latch, the modulus check included (40_command_cycle.md R83). -/
def outcomeOf (i : Instr) (l : Latch) : CmdOutcome :=
  match i with
  | .norm _ _ _ => withModulus l (opNorm l)
  | .modinv _ _ _ => withModulus l (opModinv l)
  | .mvmul _ _ _ => opMvmul l
  | .mvmulm _ _ _ => withModulus l (opMvmulm l)
  | .det _ _ _ => opDet l
  | .detm _ _ _ => withModulus l (opDetm l)
  | .adj _ _ _ => withModulus l (opAdj l)
  | .smulm _ _ _ => withModulus l (opSmulm l)
  | .minv _ _ _ => withModulus l (opMinv l)

/-- `exec` is a completion with the command's outcome (40_command_cycle.md R82). -/
theorem exec_eq_complete (i : Instr) (s : State) : exec i s = .next (complete (outcomeOf i s.latch) s) := by
  cases i <;> rfl

/-- What a latched word ends in: ILLEGAL_CMD where it decodes to nothing (40_command_cycle.md R83). -/
def latchOutcome (l : Latch) : CmdOutcome :=
  match decode l.cmd with
  | some i => outcomeOf i l
  | none => .err .illegalCmd

/-- A completion is a function of LATCH, applied to the state (40_command_cycle.md R85). -/
theorem completion_eq (s : State) : completion s = .next (complete (latchOutcome s.latch) s) := by
  unfold completion latchOutcome
  split <;> simp_all [exec_eq_complete, complete]

/-- The two ways a completion goes (40_command_cycle.md R82). -/
theorem complete_cases (o : CmdOutcome) (s : State) :
    (∃ w, o = .ok w ∧ complete o s = succeed w s) ∨ (∃ e, o = .err e ∧ complete o s = raiseError e s) := by
  cases o with
  | ok w => exact .inl ⟨w, rfl, rfl⟩
  | err e => exact .inr ⟨e, rfl, rfl⟩

/-- The modulus check, taken apart (40_command_cycle.md R86). -/
theorem withModulus_of_lt (l : Latch) (o : CmdOutcome) (h : l.n < 2) : withModulus l o = .err .badModulus := by
  simp [withModulus, h]

theorem withModulus_of_le (l : Latch) (o : CmdOutcome) (h : 2 ≤ l.n) : withModulus l o = o := by
  simp [withModulus, not_lt.mpr h]

@[simp] theorem complete_operands (o : CmdOutcome) (s : State) : (complete o s).operands = s.operands := by cases o <;> rfl
@[simp] theorem complete_ie (o : CmdOutcome) (s : State) : (complete o s).ie = s.ie := by cases o <;> rfl
@[simp] theorem complete_latch (o : CmdOutcome) (s : State) : (complete o s).latch = s.latch := by cases o <;> rfl
@[simp] theorem complete_rstIn (o : CmdOutcome) (s : State) : (complete o s).rstIn = s.rstIn := by cases o <;> rfl
@[simp] theorem complete_response (o : CmdOutcome) (s : State) : (complete o s).response = s.response := by cases o <;> rfl
@[simp] theorem complete_turns (o : CmdOutcome) (s : State) : (complete o s).turns = s.turns := by cases o <;> rfl
@[simp] theorem complete_busy (o : CmdOutcome) (s : State) : (complete o s).status.busy = false := by cases o <;> rfl
@[simp] theorem complete_done (o : CmdOutcome) (s : State) : (complete o s).status.done = true := by cases o <;> rfl
@[simp] theorem complete_ovr (o : CmdOutcome) (s : State) : (complete o s).status.ovr = s.status.ovr := by cases o <;> rfl
@[simp] theorem complete_lastop (o : CmdOutcome) (s : State) : (complete o s).status.lastop = s.status.lastop := by
  cases o <;> rfl

end Sys2Proof.Machine
end

