-- ==== Sys2Proof/Laws/PerInstr.lean ====
section
/-! SUPPORT. One lemma per command about its word: the match/mask form of 30_encoding.md R71. -/

namespace Sys2Proof.Laws.MatchMask

/-- The word of a command, under the mask that covers every bit but the three select bits, is its opcode (30_encoding.md
R71; the "match" and "mask" of spec/opcode_table.json). -/
def Statement (i : Instr) : Prop := encode i &&& 0xFFFFF8FF = i.opcode.setWidth 32

theorem norm (m v s : Bool) : Statement (.norm m v s) := by cases m <;> cases v <;> cases s <;> rfl
theorem modinv (m v s : Bool) : Statement (.modinv m v s) := by cases m <;> cases v <;> cases s <;> rfl
theorem mvmul (m v s : Bool) : Statement (.mvmul m v s) := by cases m <;> cases v <;> cases s <;> rfl
theorem mvmulm (m v s : Bool) : Statement (.mvmulm m v s) := by cases m <;> cases v <;> cases s <;> rfl
theorem det (m v s : Bool) : Statement (.det m v s) := by cases m <;> cases v <;> cases s <;> rfl
theorem detm (m v s : Bool) : Statement (.detm m v s) := by cases m <;> cases v <;> cases s <;> rfl
theorem adj (m v s : Bool) : Statement (.adj m v s) := by cases m <;> cases v <;> cases s <;> rfl
theorem smulm (m v s : Bool) : Statement (.smulm m v s) := by cases m <;> cases v <;> cases s <;> rfl
theorem minv (m v s : Bool) : Statement (.minv m v s) := by cases m <;> cases v <;> cases s <;> rfl

end Sys2Proof.Laws.MatchMask
end

