-- ==== Sys2Proof/Laws/Port.lean ====
section
/-! SUPPORT. The register map and the host port: what an access reaches, and everything serving one can do. -/

namespace Sys2Proof.Machine

/-- Every register is found at its own offset (10_state.md section 2). -/
@[simp] theorem regAt_offset (r : Reg) : regAt r.offset = some r := by cases r <;> rfl

/-- A mapped offset is the offset of its register. -/
theorem offset_of_regAt (off : Nat) (r : Reg) (h : regAt off = some r) : off = r.offset := by
  unfold regAt at h
  split at h <;> first | (cases h; rfl) | cases h

/-- Offsets are aligned and lie in the window (20_memory.md R50). -/
theorem offset_bounds (r : Reg) : r.offset % 4 = 0 ∧ r.offset ≤ 0x080 := by cases r <;> decide

/-- BASE is a multiple of 0x100 (00_scope.md R10). -/
theorem base_mod (k : Nat) : (Config.base + k) % 4 = k % 4 := by unfold Config.base; omega

/-- An offset below 0x100 is recovered from its address (20_memory.md R43). -/
theorem offsetOf_base (k : Nat) (h : k < 0x100) : offsetOf (Config.base + k) = some k := by
  unfold offsetOf
  rw [if_pos (by omega)]
  simp

/-- An aligned 4-byte access at BASE + off reaches the register there, if any. -/
theorem target_base (k : Nat) (h : k < 0x100) : target (Config.base + k) 4 = if k % 4 = 0 then regAt k else none := by
  unfold target
  rw [base_mod, offsetOf_base k h]
  simp

/-- A 4-byte access at a register's own address reaches it. -/
@[simp] theorem target_offset (r : Reg) : target (Config.base + r.offset) 4 = some r := by
  have hb := offset_bounds r
  rw [target_base _ (by omega), if_pos hb.1, regAt_offset]

/-- What an access that reaches a register looks like (20_memory.md R43, R45, R46). -/
theorem target_some (addr size : Nat) (r : Reg) (h : target addr size = some r) :
    size = 4 ∧ addr = Config.base + r.offset := by
  unfold target offsetOf at h
  split at h
  · rename_i hs
    split at h
    · rename_i hw
      have := offset_of_regAt _ _ h
      exact ⟨hs.1, by omega⟩
    · cases h
  · cases h

/-- Everything serving an access can do: a bus error, a read of a register, or a write to one (20_memory.md R47, R48, R51). -/
theorem serve_cases (a : Access) (s : State) :
    serve a s = { s with response := some .busError } ∨
    (∃ r, a = .read (Config.base + r.offset) 4 ∧ serve a s = { s with response := some (.okRead (readReg s r)) }) ∨
    (∃ r d, a = .write (Config.base + r.offset) 4 d ∧
      serve a s = { writeReg r d s with response := some .okWrite }) := by
  cases a with
  | read addr size =>
    cases h : target addr size with
    | none => exact .inl (by simp [serve, h])
    | some r =>
      obtain ⟨rfl, rfl⟩ := target_some _ _ _ h
      exact .inr (.inl ⟨r, rfl, by simp [serve]⟩)
  | write addr size d =>
    cases h : target addr size with
    | none => exact .inl (by simp [serve, h])
    | some r =>
      obtain ⟨rfl, rfl⟩ := target_some _ _ _ h
      exact .inr (.inr ⟨r, d, rfl, by simp [serve]⟩)

/-- A write through the map at a register's own address. -/
theorem serve_write (r : Reg) (d : Word) (s : State) :
    serve (.write (Config.base + r.offset) 4 d) s = { writeReg r d s with response := some .okWrite } := by
  simp [serve]

/-- A read through the map at a register's own address. -/
theorem serve_read (r : Reg) (s : State) :
    serve (.read (Config.base + r.offset) 4) s = { s with response := some (.okRead (readReg s r)) } := by
  simp [serve]

/-- Everything a register write can do (20_memory.md R48, R49). -/
theorem writeReg_cases (r : Reg) (d : Word) (s : State) :
    (r = .cmd ∧ s.status.busy = true ∧ writeReg r d s = overrun s) ∨
    (r = .cmd ∧ s.status.busy = false ∧ writeReg r d s = launch d s) ∨
    (r = .status ∧ writeReg r d s = acknowledge d s) ∨
    (r = .ctrl ∧ d.getLsbD 1 = true ∧ writeReg r d s = resetRegs s) ∨
    (r = .ctrl ∧ d.getLsbD 1 = false ∧ writeReg r d s = { s with ie := d.getLsbD 0 }) ∨
    (r ≠ .cmd ∧ r ≠ .status ∧ r ≠ .ctrl ∧ writeReg r d s = { s with operands := s.operands.write r d }) := by
  cases r with
  | cmd => cases hb : s.status.busy <;> simp [writeReg, writeCmd, hb]
  | ctrl => cases hd : d.getLsbD 1 <;> simp_all [writeReg, writeCtrl]
  | _ => simp [writeReg]

/-- A write to a read-only register leaves the operand registers alone (20_memory.md R49). -/
theorem write_readOnly (o : OperandRegs) (r : Reg) (d : Word)
    (h : r ∉ [Reg.mod, .a, .m00, .m01, .m10, .m11, .v0, .v1]) : o.write r d = o := by
  cases r <;> first | rfl | simp at h

/-- A launch latches values of 32-bit words, whatever the word and the registers are (40_command_cycle.md R79). -/
theorem launch_fits (d : Word) (s : State) : (launch d s).latch.Fits := by
  constructor <;> exact sint32_range _

end Sys2Proof.Machine
end

