-- ==== Sys2Proof/Laws/Step.lean ====
section
/-! SUPPORT. Everything one step can do, said once: the inversion lemma of `step`. -/

namespace Sys2Proof.Machine

/-- A step with a turn on the list takes it. -/
theorem step_cons (s : State) (t : Turn) (rest : List Turn) (h : s.turns = t :: rest) :
    step s = takeTurn t (s.begin rest) := by
  simp [step, nextTurn, h]

/-- A step with no turn on the list is CORE's (entry 2). -/
theorem step_nil (s : State) (h : s.turns = []) : step s = takeTurn .core (s.begin []) := by
  simp [step, nextTurn, h]

/-- CORE's turn with reset not asserted and a command running is its completion (40_command_cycle.md R81). -/
theorem takeTurn_core_busy (s : State) (hr : s.rstIn = false) (hb : s.status.busy = true) :
    takeTurn .core s = .next (complete (latchOutcome s.latch) s) := by
  simp [takeTurn, coreTurn, hr, hb, completion_eq]

/-- A host turn with reset not asserted serves its access (20_memory.md R42). -/
theorem step_host (s : State) (a : Access) (rest : List Turn) (hr : s.rstIn = false) (h : s.turns = .host a :: rest) :
    step s = .next (serve a (s.begin rest)) := by
  rw [step_cons s _ _ h]
  simp [takeTurn, hr]

/-- A host write to a register at its own address (20_memory.md R48). -/
theorem step_write (s : State) (r : Reg) (d : Word) (rest : List Turn) (hr : s.rstIn = false)
    (h : s.turns = .host (.write (Config.base + r.offset) 4 d) :: rest) :
    step s = .next { writeReg r d (s.begin rest) with response := some .okWrite } := by
  rw [step_host s _ _ hr h, serve_write]

/-- A host read of a register at its own address (20_memory.md R47). -/
theorem step_read (s : State) (r : Reg) (rest : List Turn) (hr : s.rstIn = false)
    (h : s.turns = .host (.read (Config.base + r.offset) 4) :: rest) :
    step s = .next { s.begin rest with response := some (.okRead (readReg s r)) } := by
  rw [step_host s _ _ hr h, serve_read]
  cases r <;> rfl

/-- A CORE turn with a command running and reset not asserted completes it with the outcome of LATCH
(40_command_cycle.md R81, R82). -/
theorem step_core_busy (s : State) (rest : List Turn) (hr : s.rstIn = false) (hb : s.status.busy = true)
    (h : s.turns = .core :: rest) : step s = .next (complete (latchOutcome s.latch) (s.begin rest)) := by
  rw [step_cons s _ _ h, takeTurn_core_busy (s.begin rest) hr hb]
  rfl

/-- Everything a turn can do. -/
theorem takeTurn_cases (u : Turn) (s t : State) (h : takeTurn u s = .next t) :
    (∃ a, u = .host a ∧ s.rstIn = false ∧ t = serve a s) ∨
    (∃ a, u = .host a ∧ s.rstIn = true ∧ t = { resetRegs s with response := some .unanswered }) ∨
    (u = .core ∧ s.rstIn = false ∧ s.status.busy = true ∧ t = complete (latchOutcome s.latch) s) ∨
    (u = .core ∧ s.rstIn = false ∧ s.status.busy = false ∧ t = s) ∨
    (u = .core ∧ s.rstIn = true ∧ t = resetRegs s) ∨
    (u = .resetOn ∧ t = { resetRegs s with rstIn := true }) ∨
    (u = .resetOff ∧ t = { s with rstIn := false }) := by
  cases u with
  | host a =>
    cases hr : s.rstIn with
    | false => exact .inl ⟨a, rfl, rfl, by simpa [takeTurn, hr] using h.symm⟩
    | true => exact .inr (.inl ⟨a, rfl, rfl, by simpa [takeTurn, hr] using h.symm⟩)
  | core =>
    cases hr : s.rstIn with
    | true => exact .inr (.inr (.inr (.inr (.inl ⟨rfl, rfl, by simpa [takeTurn, hr] using h.symm⟩))))
    | false =>
      cases hb : s.status.busy with
      | true =>
        rw [takeTurn_core_busy s hr hb] at h
        exact .inr (.inr (.inl ⟨rfl, rfl, rfl, by cases h; rfl⟩))
      | false => exact .inr (.inr (.inr (.inl ⟨rfl, rfl, rfl, by simpa [takeTurn, coreTurn, hr, hb] using h.symm⟩)))
  | resetOn => exact .inr (.inr (.inr (.inr (.inr (.inl ⟨rfl, by cases h; rfl⟩)))))
  | resetOff => exact .inr (.inr (.inr (.inr (.inr (.inr ⟨rfl, by cases h; rfl⟩)))))

/-- A step takes one turn: the first of the list, or CORE's where the list is used up. -/
theorem step_cases (s t : State) (h : step s = .next t) :
    ∃ u rest, (s.turns = u :: rest ∨ (s.turns = [] ∧ u = .core ∧ rest = [])) ∧ takeTurn u (s.begin rest) = .next t := by
  cases ht : s.turns with
  | nil => exact ⟨.core, [], .inr ⟨rfl, rfl, rfl⟩, by rw [← step_nil s ht]; exact h⟩
  | cons u rest => exact ⟨u, rest, .inl rfl, by rw [← step_cons s u rest ht]; exact h⟩

/-- A host write to a register, as a turn. -/
def hostWrite (r : Reg) (d : Word) : Turn := .host (.write (Config.base + r.offset) 4 d)

/-- The inversion lemma of a step: with u the turn taken and b the state with that turn taken off, everything the step can
do. The cases: held in reset; reset asserted; reset released; nothing but a response; a completion; an overrun; a launch;
an acknowledge; a soft reset; an interrupt enable; an operand write (or an ignored one). -/
theorem step_effect (s t : State) (h : step s = .next t) :
    ∃ u rest b, (s.turns = u :: rest ∨ (s.turns = [] ∧ u = .core ∧ rest = [])) ∧ b = s.begin rest ∧
      ((s.rstIn = true ∧ ∃ resp, t = { resetRegs b with response := resp }) ∨
       (u = .resetOn ∧ t = { resetRegs b with rstIn := true }) ∨
       (u = .resetOff ∧ t = { b with rstIn := false }) ∨
       (s.rstIn = false ∧ ∃ resp, t = { b with response := resp }) ∨
       (s.rstIn = false ∧ u = .core ∧ s.status.busy = true ∧ t = complete (latchOutcome s.latch) b) ∨
       (s.rstIn = false ∧ s.status.busy = true ∧
         ∃ d, u = hostWrite .cmd d ∧ t = { overrun b with response := some .okWrite }) ∨
       (s.rstIn = false ∧ s.status.busy = false ∧
         ∃ d, u = hostWrite .cmd d ∧ t = { launch d b with response := some .okWrite }) ∨
       (s.rstIn = false ∧ ∃ d, u = hostWrite .status d ∧ t = { acknowledge d b with response := some .okWrite }) ∨
       (s.rstIn = false ∧ ∃ d, d.getLsbD 1 = true ∧ u = hostWrite .ctrl d ∧
         t = { resetRegs b with response := some .okWrite }) ∨
       (s.rstIn = false ∧ ∃ d, d.getLsbD 1 = false ∧ u = hostWrite .ctrl d ∧
         t = { b with ie := d.getLsbD 0, response := some .okWrite }) ∨
       (s.rstIn = false ∧ ∃ r d, r ≠ .cmd ∧ r ≠ .status ∧ r ≠ .ctrl ∧ u = hostWrite r d ∧
         t = { b with operands := s.operands.write r d, response := some .okWrite })) := by
  obtain ⟨u, rest, hu, ht⟩ := step_cases s t h
  refine ⟨u, rest, s.begin rest, hu, rfl, ?_⟩
  obtain ⟨a, rfl, hr, rfl⟩ | ⟨a, rfl, hr, rfl⟩ | ⟨rfl, hr, hb, rfl⟩ | ⟨rfl, hr, hb, rfl⟩ | ⟨rfl, hr, rfl⟩ | ⟨rfl, rfl⟩ | ⟨rfl, rfl⟩ :=
    takeTurn_cases u (s.begin rest) t ht
  · obtain h | ⟨r, rfl, h⟩ | ⟨r, d, rfl, h⟩ := serve_cases a (s.begin rest)
    · rw [h]; exact .inr (.inr (.inr (.inl ⟨hr, _, rfl⟩)))
    · rw [h]; exact .inr (.inr (.inr (.inl ⟨hr, _, rfl⟩)))
    · rw [h]
      obtain ⟨rfl, hb, hw⟩ | ⟨rfl, hb, hw⟩ | ⟨rfl, hw⟩ | ⟨rfl, hd, hw⟩ | ⟨rfl, hd, hw⟩ | ⟨h1, h2, h3, hw⟩ :=
        writeReg_cases r d (s.begin rest) <;> rw [hw]
      · exact .inr (.inr (.inr (.inr (.inr (.inl ⟨hr, hb, d, rfl, rfl⟩)))))
      · exact .inr (.inr (.inr (.inr (.inr (.inr (.inl ⟨hr, hb, d, rfl, rfl⟩))))))
      · exact .inr (.inr (.inr (.inr (.inr (.inr (.inr (.inl ⟨hr, d, rfl, rfl⟩)))))))
      · exact .inr (.inr (.inr (.inr (.inr (.inr (.inr (.inr (.inl ⟨hr, d, hd, rfl, rfl⟩))))))))
      · exact .inr (.inr (.inr (.inr (.inr (.inr (.inr (.inr (.inr (.inl ⟨hr, d, hd, rfl, rfl⟩)))))))))
      · exact .inr (.inr (.inr (.inr (.inr (.inr (.inr (.inr (.inr (.inr ⟨hr, r, d, h1, h2, h3, rfl, rfl⟩)))))))))
  · exact .inl ⟨hr, _, rfl⟩
  · exact .inr (.inr (.inr (.inr (.inl ⟨hr, rfl, hb, rfl⟩))))
  · exact .inr (.inr (.inr (.inl ⟨hr, _, rfl⟩)))
  · exact .inl ⟨hr, _, rfl⟩
  · exact .inr (.inl ⟨rfl, rfl⟩)
  · exact .inr (.inr (.inl ⟨rfl, rfl⟩))

/-- The turn of `withFetchWord`'s state is CORE's, and the latched word is the one placed (entry 4). -/
theorem step_withFetchWord (s : State) (nbits w : Nat) (i : Instr) (h : decodeTableWord nbits w = some i) :
    step (s.withFetchWord nbits w) =
      exec i { launch (BitVec.ofNat 32 (w % 2 ^ nbits)) s with rstIn := false, response := none } := by
  have hd : decode (BitVec.ofNat 32 (w % 2 ^ nbits)) = some i := h
  rw [step_cons _ .core s.turns rfl]
  simp only [takeTurn, coreTurn, completion]
  simp [State.withFetchWord, launchedNext, snapshot, Status.launched, hd]
  rfl

end Sys2Proof.Machine
end

