-- ==== Sys2Proof/Laws/Run.lean ====
section
/-! SUPPORT. Running the machine for several steps, one step at a time. -/

namespace Sys2Proof.Machine

/-- No step left to run. -/
theorem run_zero (s : State) : Host.Core.run Sys2Proof.core 0 s = .next s := rfl

/-- A run of any machine goes through the next state of its first step. -/
theorem core_run_succ (M : Host.Core) (k : Nat) (s t : M.State) (h : M.step s = .next t) :
    M.run (k + 1) s = M.run k t := by
  rw [Host.Core.run, h]

/-- A run of this machine goes through the next state of its first step. -/
theorem run_succ (k : Nat) (s t : State) (h : step s = .next t) :
    Host.Core.run Sys2Proof.core (k + 1) s = Host.Core.run Sys2Proof.core k t :=
  core_run_succ Sys2Proof.core k s t h

/-- A turn of HOST is an access still to perform; a turn of CORE or ENV is none (40_command_cycle.md R91). -/
theorem accessesLeft_cons (s : State) (u : Turn) (rest : List Turn) (h : s.turns = u :: rest) :
    s.accessesLeft = u.access?.toList ++ rest.filterMap Turn.access? := by
  unfold State.accessesLeft
  rw [h]
  cases u <;> rfl

/-- With no turn left the host has no access left. -/
theorem accessesLeft_nil (s : State) (h : s.turns = []) : s.accessesLeft = [] := by
  unfold State.accessesLeft
  rw [h]
  rfl

/-- The start of a run is the reset state but for the coming turns (40_command_cycle.md R91). -/
@[simp] theorem startRun_turns (turns : List Turn) : (State.startRun turns).turns = turns := rfl

end Sys2Proof.Machine
end

