-- ==== Sys2Proof/Tests/Slice0.lean ====
section
/-! SUPPORT. The author's own tests. Every expected value is a vector of spec/95_test_vectors.md or is worked by hand from a rule; and
for every statement with hypotheses a witness that meets them. -/

namespace Sys2Proof.Tests

open Sys2Proof.Machine

/-- A small machine: the reset state with its operand registers written and these turns to come. -/
def machine (n a : Word) (m : Mat Word) (v : Vec2 Word) (turns : List Turn := []) : State :=
  { State.reset with operands := { mod := n, a := a, m := m, v := v }, turns := turns }

/-- The value of a next state; the state given where there is none. -/
def stateOf (s : State) (o : Host.Outcome State Fault Refusal) : State :=
  match o with
  | .next t => t
  | .fault _ => s
  | .refused _ => s

/-- A word launched and completed. -/
def ran (d : Word) (s : State) : State := stateOf s (completion (launch d s))

/-- A host write, and a host read, of an offset. -/
def hostW (off : Nat) (d : Word) : Turn := .host (.write (Config.base + off) 4 d)
def hostR (off : Nat) : Turn := .host (.read (Config.base + off) 4)

def key26 : Mat Word := { m00 := 6, m01 := 11, m10 := 25, m11 := 15 }
def key29 : Mat Word := { m00 := 28, m01 := 7, m10 := 19, m11 := 18 }
def zeroM : Mat Word := { m00 := 0, m01 := 0, m10 := 0, m11 := 0 }
def idM : Mat Word := { m00 := 1, m01 := 0, m10 := 0, m11 := 1 }
def singular : Mat Word := { m00 := 2, m01 := 4, m10 := 1, m11 := 3 }
def zeroV : Vec2 Word := { v0 := 0, v1 := 0 }
def block : Vec2 Word := { v0 := 19, v1 := 17 }
/-- The most negative word, −2^31. -/
def low : Word := 0x80000000
def lowM : Mat Word := { m00 := low, m01 := low, m10 := low, m11 := low }
def lowV : Vec2 Word := { v0 := low, v1 := low }

/-! ### Well-formed terms: a term each check refuses -/

theorem test_norm_may_not_name_m : (Instr.norm true false false).wf = false := by decide
theorem test_det_may_not_name_v : (Instr.det false true false).wf = false := by decide
theorem test_mvmul_may_not_name_s : (Instr.mvmul true true true).wf = false := by decide
theorem test_smulm_may_name_m_and_s : (Instr.smulm true false true).wf = true := by decide

/-! ### Decoding: words written out from 30_encoding.md section 6 and 95_test_vectors.md 3.1 -/

theorem test_decode_norm : decode 0x00000001 = some (.norm false false false) := by decide
theorem test_decode_norm_s : decode 0x00000401 = some (.norm false false true) := by decide
theorem test_decode_norm_ignored : decode 0x00000701 = some (.norm true true true) := by decide
theorem test_decode_modinv : decode 0b10000000010 = some (.modinv false false true) := by decide
theorem test_decode_mvmul : decode 0b01000000011 = some (.mvmul false true false) := by decide
theorem test_decode_mvmulm : decode 0x00000304 = some (.mvmulm true true false) := by decide
theorem test_decode_det : decode 0b00100000101 = some (.det true false false) := by decide
theorem test_decode_detm : decode 0b00000000110 = some (.detm false false false) := by decide
theorem test_decode_adj : decode 0b00100000111 = some (.adj true false false) := by decide
theorem test_decode_smulm : decode 0b10100001000 = some (.smulm true false true) := by decide
theorem test_decode_minv : decode 0x00000109 = some (.minv true false false) := by decide
theorem test_decode_illegal :
    [0x00000000, 0x0000000A, 0x0000001F, 0x00000100, 0x00000021, 0x00000801, 0x80000001].map decode =
      [none, none, none, none, none, none, none] := by decide
theorem test_encode_mvmulm : encode (.mvmulm true true false) = 0x00000304 := by decide
theorem test_decode_table_word : decodeTableWord 32 0x00000508 = some (.smulm true false true) := by decide

/-! ### The assembler: 30_encoding.md R74 to R76 -/

theorem test_asm_text : asmText (.mvmulm true true false) = some "MVMULM m=R, v=R" := by decide
theorem test_asm_refuses_ignored : asmText (.minv false true false) = none := by decide
theorem test_assemble : assemble "MINV m=R" = some 0x00000109 := by decide
theorem test_program_ops :
    programOps [.wr .mod 26, .wr .v1 (-1), .cmd (.minv false false false), .rd .rS, .srst] =
      some [.w 0x010 26, .w 0x02C 0xFFFFFFFF, .w 0x004 9, .r 0x040, .w 0x00C 2] := by decide

/-! ### The commands: 95_test_vectors.md 2.1 to 2.9 -/

theorem test_norm_negative : (ran 0x1 (machine 26 (-185) zeroM zeroV)).results.rS = 23 := by decide
theorem test_norm_chained :
    (ran 0x401 { machine 26 5 zeroM zeroV with results := { ResultRegs.cleared with rS := 27 } }).results.rS = 1 := by decide
theorem test_modinv : (ran 0x2 (machine 26 23 zeroM zeroV)).results.rS = 17 := by decide
theorem test_modinv_longest :
    (ran 0x2 (machine 1836311903 1134903170 zeroM zeroV)).results.rS = 1134903170 := by decide
theorem test_mvmul_extreme :
    let r := (ran 0x3 (machine 0 0 lowM lowV)).results
    [rawWord r.rW0 0, rawWord r.rW0 1, rawWord r.rW0 2] = [0, 0x80000000, 0] := by decide
theorem test_mvmul_rows :
    let r := (ran 0x3 (machine 0 0 key26 block)).results
    (sint96 r.rW0, sint96 r.rW1) = (301, 730) := by decide
theorem test_mvmulm_block : (ran 0x4 (machine 26 0 key26 block)).results.rV = { v0 := 15, v1 := 2 } := by decide
theorem test_mvmulm_negative :
    (ran 0x4 (machine 26 0 { m00 := -1, m01 := 0, m10 := 0, m11 := -1 } { v0 := 1, v1 := 0 })).results.rV =
      { v0 := 25, v1 := 0 } := by decide
theorem test_det_negative :
    let r := (ran 0x5 (machine 0 0 key26 zeroV)).results
    [rawWord r.rDet 0, rawWord r.rDet 1, rawWord r.rDet 2] = [0xFFFFFF47, 0xFFFFFFFF, 0xFFFFFFFF] := by decide
theorem test_det_minimum :
    sint96 (ran 0x5 (machine 0 0 { m00 := low, m01 := low, m10 := low, m11 := 0x7FFFFFFF } zeroV)).results.rDet =
      -9223372034707292160 := by decide
theorem test_detm : (ran 0x6 (machine 29 0 key29 zeroV)).results.rS = 23 := by decide
theorem test_detm_no_inverse_needed :
    (ran 0x6 (machine 26 0 { m00 := 13, m01 := 0, m10 := 0, m11 := 2 } zeroV)).status.word = 0x00000602 := by decide
theorem test_adj : (ran 0x7 (machine 26 0 key26 zeroV)).results.rM = { m00 := 15, m01 := 15, m10 := 1, m11 := 6 } := by decide
theorem test_adj_lowest :
    (ran 0x7 (machine 26 0 lowM zeroV)).results.rM = { m00 := 2, m01 := 24, m10 := 24, m11 := 2 } := by decide
theorem test_smulm_minus_one :
    (ran 0x8 (machine 26 (-1) key26 zeroV)).results.rM = { m00 := 20, m01 := 15, m10 := 1, m11 := 11 } := by decide
theorem test_smulm_lowest :
    (ran 0x8 (machine 26 low lowM zeroV)).results.rM = { m00 := 4, m01 := 4, m10 := 4, m11 := 4 } := by decide
theorem test_minv :
    let r := (ran 0x9 (machine 29 0 key29 zeroV)).results
    (sint96 r.rDet, r.rS, r.rM) = (371, 24, { m00 := 26, m01 := 6, m10 := 8, m11 := 5 }) := by decide
theorem test_minv_no_inverse :
    let t := ran 0x9 (machine 26 0 singular zeroV)
    t.status.word = 0x00000916 ∧ t.results = ResultRegs.cleared := by decide

/-! ### Errors and STATUS: 95_test_vectors.md 3.2 and 3.3 -/

theorem test_illegal_before_modulus : (ran 0x21 (machine 0 0 zeroM zeroV)).status.word = 0x00000136 := by decide
theorem test_modulus_before_inverse : (ran 0x9 (machine 1 0 singular zeroV)).status.word = 0x00000926 := by decide
theorem test_status_running : (launch 0x9 (machine 26 0 key26 zeroV)).status.word = 0x00000901 := by decide
theorem test_status_after_acknowledge :
    (acknowledge 0x2 (ran 0x2 (machine 26 13 zeroM zeroV))).status.word = 0x00000214 := by decide
theorem test_status_after_overrun :
    (stateOf State.reset (completion (overrun (launch 0x5 (machine 0 0 key26 zeroV))))).status.word = 0x0000050A := by decide

/-! ### The port: 95_test_vectors.md 3.4 -/

theorem test_read_id (s : State) : serve (.read (Config.base + 0x000) 4) s = { s with response := some (.okRead 0x4D4D4932) } :=
  serve_read .id s
theorem test_read_cmd (s : State) : serve (.read (Config.base + 0x004) 4) s = { s with response := some (.okRead 0) } :=
  serve_read .cmd s
theorem test_write_result_ignored (s : State) :
    (serve (.write (Config.base + 0x040) 4 5) s).results.rS = s.results.rS := by
  rw [show Config.base + 0x040 = Config.base + Reg.rS.offset from rfl, serve_write]; rfl
theorem test_read_unmapped (s : State) :
    serve (.read (Config.base + 0x084) 4) s = { s with response := some .busError } := by
  simp only [serve, target_base 0x084 (by decide)]; rfl
theorem test_read_outside (s : State) :
    serve (.read (Config.base + 0x100) 4) s = { s with response := some .busError } := by
  have h : target (Config.base + 0x100) 4 = none := by
    unfold target offsetOf
    rw [if_neg (show ¬(Config.base ≤ Config.base + 0x100 ∧ Config.base + 0x100 < Config.base + 0x100) by omega)]
    split <;> rfl
  simp only [serve, h]
theorem test_read_misaligned (s : State) :
    serve (.read (Config.base + 0x002) 4) s = { s with response := some .busError } := by
  simp only [serve, target_base 0x002 (by decide)]; rfl
theorem test_read_half (s : State) :
    serve (.read (Config.base + 0x014) 2) s = { s with response := some .busError } := by
  simp [serve, target]
theorem test_write_ctrl_both (s : State) : (writeReg .ctrl 0x3 s).ie = false ∧ (writeReg .ctrl 0x3 s).results = ResultRegs.cleared := by
  simp [writeReg, writeCtrl]
theorem test_write_ctrl_enable (s : State) : writeReg .ctrl 0x1 s = { s with ie := true } := rfl
theorem test_write_status_all :
    (writeReg .status 0xFFFFFFFF (overrun (ran 0x9 (machine 26 0 singular zeroV)))).status.word = 0x00000914 := by decide

/-! ### Steps from reset -/

theorem test_fetch_word_runs :
    (stateOf State.reset (step (State.reset.withFetchWord 32 0x00000005))).status.word = 0x00000502 := by decide
theorem test_fetch_word_is_exec :
    step (State.reset.withFetchWord 32 0x00000003) =
      exec (.mvmul false false false) { launch 0x3 State.reset with rstIn := false, response := none } :=
  step_withFetchWord State.reset 32 3 _ rfl
theorem test_reset_idles : (stateOf State.reset (step State.reset)).status = Status.cleared := by decide

/-! ### Witnesses: for each statement with hypotheses, a state and operands that meet them all -/

/-- A machine with a command just launched and reset not asserted. -/
def busy (d : Word) (turns : List Turn) : State := launch d (machine 26 23 key26 block turns)

theorem witness_AssembledWordIsTheFormula :
    asmText (.smulm true false true) = some "SMULM m=R, s=R" ∧ asmText (.norm true false false) = none := by decide
theorem witness_AssembledValueIsItsWord :
    asmValue (-2147483648) = some 0x80000000 ∧ asmValue (-1) = some 0xFFFFFFFF ∧ asmValue 0 = some 0 ∧
      asmValue 4294967295 = some 0xFFFFFFFF ∧ asmValue 4294967296 = none ∧ asmValue (-2147483649) = none := by decide
theorem witness_PseudoInstructionsExpand :
    lineOps (.run (.minv true false false) 1) = some [.w 0x004 0x109, .r 0x008, .r 0x008] := by decide
theorem witness_StepRunsDecodedCommand :
    (busy 9 [.core]).rstIn = false ∧ (busy 9 [.core]).status.busy = true ∧
      decode (busy 9 [.core]).latch.cmd = some (.minv false false false) ∧ (busy 9 [.core]).turns = [.core] ∧
      (busy 9 []).turns = [] := by decide
theorem witness_CoreHasNoStepWhenIdle :
    (machine 0 0 zeroM zeroV [.core]).rstIn = false ∧ (machine 0 0 zeroM zeroV [.core]).status.busy = false := by decide

theorem witness_NormWritesResidue : (busy 2 []).latch.Fits ∧ 2 ≤ (busy 2 []).latch.n := ⟨launch_fits _ _, by decide⟩
theorem witness_ModinvWritesInverse :
    (busy 2 []).latch.Fits ∧ 2 ≤ (busy 2 []).latch.n ∧ Int.gcd ((busy 2 []).latch.s % (busy 2 []).latch.n) (busy 2 []).latch.n = 1 :=
  ⟨launch_fits _ _, by decide, by decide⟩
theorem witness_MvmulWritesExactProduct : (launch 3 (machine 0 0 lowM lowV)).latch.Fits :=
  launch_fits _ _
theorem witness_MvmulmWritesProductAndResidues :
    (launch 4 (machine 2 0 lowM lowV)).latch.Fits ∧ 2 ≤ (launch 4 (machine 2 0 lowM lowV)).latch.n :=
  ⟨launch_fits _ _, by decide⟩
theorem witness_DetWritesExactDeterminant : (launch 5 (machine 0 0 lowM zeroV)).latch.Fits :=
  launch_fits _ _
theorem witness_DetmWritesDeterminantAndResidue :
    (launch 6 (machine 0x7FFFFFFF 0 lowM zeroV)).latch.Fits ∧ 2 ≤ (launch 6 (machine 0x7FFFFFFF 0 lowM zeroV)).latch.n :=
  ⟨launch_fits _ _, by decide⟩
theorem witness_AdjWritesAdjugate :
    (launch 7 (machine 26 0 lowM zeroV)).latch.Fits ∧ 2 ≤ (launch 7 (machine 26 0 lowM zeroV)).latch.n :=
  ⟨launch_fits _ _, by decide⟩
theorem witness_SmulmWritesScaledMatrix :
    (launch 8 (machine 26 low lowM zeroV)).latch.Fits ∧ 2 ≤ (launch 8 (machine 26 low lowM zeroV)).latch.n :=
  ⟨launch_fits _ _, by decide⟩
theorem witness_MinvWritesModularInverse :
    (busy 9 []).latch.Fits ∧ 2 ≤ (busy 9 []).latch.n ∧
      Int.gcd ((busy 9 []).latch.m.m00 * (busy 9 []).latch.m.m11 - (busy 9 []).latch.m.m01 * (busy 9 []).latch.m.m10)
        (busy 9 []).latch.n = 1 :=
  ⟨launch_fits _ _, by decide, by decide⟩
theorem witness_EuclidOutcomeIsTheInverseOrNone :
    (Int.gcd 23 26 = 1 ∧ eea 23 26 = some 17) ∧ (Int.gcd 13 26 ≠ 1 ∧ eea 13 26 = none) ∧
      (Int.gcd 0 2 ≠ 1 ∧ eea 0 2 = none) ∧ (Int.gcd 2147483646 2147483647 = 1 ∧ eea 2147483646 2147483647 = some 2147483646) := by
  decide

theorem witness_NoInverseExactlyWhenGcdIsNotOne :
    (2 ≤ (launch 2 (machine 26 13 singular zeroV)).latch.n ∧ Int.gcd (13 % 26) 26 ≠ 1 ∧ Int.gcd (2 * 3 - 4 * 1) 26 ≠ 1) ∧
      (2 ≤ (busy 2 []).latch.n ∧ Int.gcd (23 % 26) 26 = 1) := by decide
theorem witness_BadModulusExactlyBelowTwo :
    (Instr.norm false false false).readsN = true ∧ (machine 1 0 zeroM zeroV).operands.mod.toInt < 2 ∧
      (machine 0xFFFFFFFF 0 zeroM zeroV).operands.mod.toInt < 2 ∧ 2 ≤ (machine 2 0 zeroM zeroV).operands.mod.toInt := by decide
theorem witness_IllegalWordFailsWithIllegalCmd :
    IllegalWord 0x00000000 ∧ IllegalWord 0x0000000A ∧ IllegalWord 0x00000021 ∧ IllegalWord 0x80000001 := by
  unfold IllegalWord; decide
theorem witness_FailedCommandWritesNoResult :
    ∃ s t, completion s = .next t ∧ t.status.err = true := ⟨launch 2 (machine 26 13 zeroM zeroV), _, rfl, by decide⟩
theorem witness_OutcomeDependsOnLatchAlone :
    ∃ s s' t t' : State, s ≠ s' ∧ s.latch = s'.latch ∧ completion s = .next t ∧ completion s' = .next t' :=
  ⟨busy 9 [], busy 9 [.core], _, _, by intro h; exact absurd (congrArg State.turns h) (by decide), rfl, rfl, rfl⟩
theorem witness_ScalarAndVectorCommandsKeepOtherRegisters :
    Reg.a ≠ .status ∧ Reg.a ≠ .rS ∧ Reg.a ∉ [Reg.rW0w0, .rW0w1, .rW0w2, .rW1w0, .rW1w1, .rW1w2, .rV0, .rV1] ∧
      (∃ t, exec (.norm false false false) (busy 1 []) = .next t) ∧ (∃ t, exec (.modinv false false false) (busy 2 []) = .next t) ∧
      (∃ t, exec (.mvmul false false false) (busy 3 []) = .next t) ∧ (∃ t, exec (.mvmulm false false false) (busy 4 []) = .next t) :=
  ⟨by decide, by decide, by decide, ⟨_, rfl⟩, ⟨_, rfl⟩, ⟨_, rfl⟩, ⟨_, rfl⟩⟩
theorem witness_DeterminantAndMatrixCommandsKeepOtherRegisters :
    Reg.rV0 ≠ .status ∧ Reg.rV0 ∉ [Reg.rDetw0, .rDetw1, .rDetw2, .rS, .rM00, .rM01, .rM10, .rM11] ∧
      (∃ t, exec (.det false false false) (busy 5 []) = .next t) ∧ (∃ t, exec (.detm false false false) (busy 6 []) = .next t) ∧
      (∃ t, exec (.adj false false false) (busy 7 []) = .next t) ∧ (∃ t, exec (.smulm false false false) (busy 8 []) = .next t) ∧
      (∃ t, exec (.minv false false false) (busy 9 []) = .next t) :=
  ⟨by decide, by decide, ⟨_, rfl⟩, ⟨_, rfl⟩, ⟨_, rfl⟩, ⟨_, rfl⟩, ⟨_, rfl⟩⟩

theorem witness_CmdWriteLaunches :
    ∃ s : State, s.rstIn = false ∧ s.status.busy = false ∧ s.turns = [.host (.write (Config.base + 0x004) 4 0x704)] :=
  ⟨machine 26 23 key26 block [hostW 0x004 0x704], rfl, rfl, rfl⟩
theorem witness_CmdWriteWhileBusyIsOverrun :
    ∃ s : State, s.rstIn = false ∧ s.status.busy = true ∧ s.turns = [.host (.write (Config.base + 0x004) 4 1)] :=
  ⟨busy 9 [hostW 0x004 1], rfl, rfl, rfl⟩
theorem witness_ReadReturnsTheRegisterAtItsOffset :
    ∃ s : State, s.rstIn = false ∧ s.turns = [.host (.read (Config.base + 0x080) 4)] :=
  ⟨machine 26 23 key26 block [hostR 0x080], rfl, rfl⟩
/-- One access for each clause: misaligned, another size, a hole of the map, the two ends of the unmapped range. -/
theorem witness_BadAccessGetsBusError :
    (Config.base + 0x002) % 4 ≠ 0 ∧ (2 : Nat) ≠ 4 ∧
      (∃ off ∈ [0x030, 0x034, 0x038, 0x03C, 0x05C], Config.base + 0x05C = Config.base + off) ∧
      (Config.base + 0x084 ≤ Config.base + 0x084 ∧ Config.base + 0x084 < Config.base + 0x100) ∧
      (Config.base + 0x084 ≤ Config.base + 0x0FC ∧ Config.base + 0x0FC < Config.base + 0x100) ∧
      (machine 0 0 zeroM zeroV [hostR 0x05C]).rstIn = false ∧
      (machine 0 0 zeroM zeroV [hostR 0x05C]).turns = [.host (.read (Config.base + 0x05C) 4)] := by
  refine ⟨by rw [base_mod]; decide, by decide, ⟨0x05C, by decide, rfl⟩, ?_, ?_, rfl, rfl⟩ <;> omega
theorem witness_OperandWriteChangesOnlyItsRegister :
    ∃ s : State, Reg.v1 ∈ [Reg.mod, .a, .m00, .m01, .m10, .m11, .v0, .v1] ∧ s.rstIn = false ∧
      s.turns = [.host (.write (Config.base + Reg.v1.offset) 4 7)] :=
  ⟨busy 9 [hostW 0x02C 7], by decide, rfl, rfl⟩
theorem witness_ReadOnlyWriteIsIgnored :
    ∃ s : State, s.rstIn = false ∧ s.turns = [.host (.write (Config.base + 0x040) 4 5)] :=
  ⟨machine 0 0 zeroM zeroV [hostW 0x040 5], rfl, rfl⟩
theorem witness_StatusReadsFieldsAndClearsByWritingOne :
    ∃ s : State, s.rstIn = false ∧ s.status.done = true ∧ s.turns = [.host (.write (Config.base + 0x008) 4 0x2)] :=
  ⟨{ ran 9 (machine 26 0 key26 zeroV) with turns := [hostW 0x008 0x2] }, rfl, rfl, rfl⟩
/-- Both clauses: d = 1 enables, d = 3 resets. -/
theorem witness_CtrlWriteSetsEnableOrResets :
    (1 : Word).getLsbD 1 = false ∧ (3 : Word).getLsbD 1 = true ∧ (machine 0 0 zeroM zeroV).rstIn = false ∧
      (machine 0 0 zeroM zeroV [hostW 0x00C 1]).turns = [.host (.write (Config.base + 0x00C) 4 1)] ∧
      (machine 0 0 zeroM zeroV [hostW 0x00C 3]).turns = [.host (.write (Config.base + 0x00C) 4 3)] :=
  ⟨by decide, by decide, rfl, rfl, rfl⟩
theorem witness_InterruptRisesOnCompletionAndFalls :
    (2 : Word).getLsbD 1 = true ∧ (2 : Word).getLsbD 0 = false ∧ ∃ t, completion { busy 9 [] with ie := true } = .next t ∧ t.irq = true :=
  ⟨by decide, by decide, _, rfl, by decide⟩
theorem witness_RawReadReturnsOneValue :
    ∃ s : State, s.rstIn = false ∧ s.turns = hostTurns (RawReg.rDet.words.map fun r => PortOp.r r.offset) ++ [.core] :=
  ⟨machine 0 0 zeroM zeroV [hostR 0x078, hostR 0x07C, hostR 0x080, .core], rfl, rfl⟩

/-- Both clauses: the turn that asserts reset, and a host access and CORE's turn while it is asserted. -/
theorem witness_HardwareResetHoldsTheRegisters :
    (busy 9 [.resetOn]).turns = [.resetOn] ∧
      (∃ s : State, s.rstIn = true ∧ s.turns = [hostR 0x000] ∧ hostR 0x000 ≠ .resetOff) ∧
      (∃ s : State, s.rstIn = true ∧ s.turns = [.core] ∧ Turn.core ≠ .resetOff) :=
  ⟨rfl, ⟨{ machine 0 0 zeroM zeroV [hostR 0x000] with rstIn := true }, rfl, rfl, by intro h; cases h⟩,
    ⟨{ machine 0 0 zeroM zeroV [.core] with rstIn := true }, rfl, rfl, by intro h; cases h⟩⟩
theorem witness_SoftResetAbandonsTheCommand :
    ∃ s : State, s.rstIn = false ∧ s.status.busy = true ∧ (2 : Word).getLsbD 1 = true ∧
      s.turns = .host (.write (Config.base + 0x00C) 4 2) :: .core :: [] :=
  ⟨busy 9 [hostW 0x00C 2, .core], rfl, rfl, by decide, rfl⟩

theorem reset_meets_Inv : State.reset.Inv := by
  constructor <;> (first | (unfold IsResidueWord; decide) | (unfold IsExactRaw; decide) | decide | (intro h; cases h))
theorem witness_EveryStepKeepsTheInvariant : ∃ s t : State, s.Inv ∧ step s = .next t := ⟨State.reset, _, reset_meets_Inv, rfl⟩
/-- One word for each clause: SSEL, VSEL, MSEL set. -/
theorem witness_ChainedOperandIsTheResidue :
    State.reset.Inv ∧ (0x401 : Word).getLsbD 10 = true ∧ (0x203 : Word).getLsbD 9 = true ∧ (0x109 : Word).getLsbD 8 = true :=
  ⟨reset_meets_Inv, by decide, by decide, by decide⟩

/-- Both clauses: BUSY rises by a launch, and falls by a completion. -/
theorem witness_BusyMovesOnlyByLaunchCompletionReset :
    (∃ s t : State, step s = .next t ∧ s.status.busy = false ∧ t.status.busy = true) ∧
      (∃ s t : State, step s = .next t ∧ s.status.busy = true ∧ t.status.busy = false) :=
  ⟨⟨machine 26 23 key26 block [hostW 0x004 9], _, step_write _ .cmd 9 [] rfl rfl, rfl, rfl⟩,
    ⟨busy 9 [.core], _, rfl, rfl, rfl⟩⟩
/-- Both clauses: OVR rises by a CMD write while a command runs, and falls by a write to STATUS. -/
theorem witness_OverrunFlagIsSticky :
    (∃ s t : State, step s = .next t ∧ s.status.ovr = false ∧ t.status.ovr = true) ∧
      (∃ s t : State, step s = .next t ∧ s.status.ovr = true ∧ t.status.ovr = false) :=
  ⟨⟨busy 9 [hostW 0x004 1], _, step_write _ .cmd 1 [] rfl rfl, rfl, rfl⟩,
    ⟨overrun (busy 9 [hostW 0x008 8]), _, step_write _ .status 8 [] rfl rfl, rfl, rfl⟩⟩
/-- Both clauses: DONE rises by a completion, and falls by an acknowledge. -/
theorem witness_DoneMovesOnlyByCompletionLaunchAckReset :
    (∃ s t : State, step s = .next t ∧ s.status.done = false ∧ t.status.done = true) ∧
      (∃ s t : State, step s = .next t ∧ s.status.done = true ∧ t.status.done = false) :=
  ⟨⟨busy 9 [], _, rfl, rfl, rfl⟩,
    ⟨{ ran 9 (machine 26 0 key26 zeroV) with turns := [hostW 0x008 2] }, _, step_write _ .status 2 [] rfl rfl, rfl, rfl⟩⟩
/-- Both clauses: a failing completion moves ERR, a launch moves LASTOP. -/
theorem witness_ErrorReportMovesOnlyByCompletionLaunchReset :
    (∃ s t : State, step s = .next t ∧ t.status.err ≠ s.status.err) ∧
      (∃ s t : State, step s = .next t ∧ t.status.lastop ≠ s.status.lastop) :=
  ⟨⟨launch 0x21 (machine 26 0 key26 zeroV), _, rfl, by decide⟩,
    ⟨machine 26 23 key26 block [hostW 0x004 9], _, step_write _ .cmd 9 [] rfl rfl, by decide⟩⟩
theorem witness_ResultsChangeOnlyByCompletionOrReset :
    ∃ s t : State, step s = .next t ∧ t.results ≠ s.results := ⟨busy 9 [], _, rfl, by decide⟩
theorem witness_OperandsChangeOnlyByHostWriteOrReset :
    ∃ s t : State, Reg.a ∈ [Reg.mod, .a, .m00, .m01, .m10, .m11, .v0, .v1] ∧ step s = .next t ∧ readReg t .a ≠ readReg s .a :=
  ⟨busy 9 [hostW 0x014 5], _, by decide, step_write _ .a 5 [] rfl rfl, by decide⟩
theorem witness_OperandWriteCommutesWithCompletion :
    ∃ s s' : State, Reg.mod ∈ [Reg.mod, .a, .m00, .m01, .m10, .m11, .v0, .v1] ∧ s.rstIn = false ∧ s.status.busy = true ∧
      s.turns = .host (.write (Config.base + Reg.mod.offset) 4 0) :: .core :: [] ∧
      s' = { s with turns := .core :: .host (.write (Config.base + Reg.mod.offset) 4 0) :: [] } :=
  ⟨busy 9 [hostW 0x010 0, .core], _, by decide, rfl, rfl, rfl, rfl⟩
/-- 40_command_cycle.md R91: only CORE's and ENV's turns are left and BUSY = 0, so the run has ended; an access left, or BUSY = 1,
and it has not. -/
theorem test_ended_looks_at_accesses_and_busy :
    (State.startRun [.core, .resetOn]).Ended ∧ ¬(State.startRun [.core, hostR 0x008]).Ended ∧ ¬(busy 9 []).Ended := by
  refine ⟨⟨rfl, rfl⟩, ?_, ?_⟩
  · intro h; cases h.1
  · intro h; cases h.2
/-- Both clauses: an ended run with a CORE turn to come, and a running command. -/
theorem witness_EndedRunStaysEnded :
    (∃ s t : State, step s = .next t ∧ s.Ended ∧ s.rstIn = false ∧ ∀ rest, s.turns ≠ .resetOn :: rest) ∧
      (∃ s t : State, step s = .next t ∧ s.status.busy = true) :=
  ⟨⟨State.startRun [.core], _, rfl, ⟨rfl, rfl⟩, rfl, by intro rest h; cases h⟩, ⟨busy 9 [], _, rfl, rfl⟩⟩
theorem witness_InverseOfInverseIsTheMatrix :
    ∃ s : State, s.rstIn = false ∧ s.status.busy = false ∧ 2 ≤ s.operands.mod.toInt ∧
      Int.gcd (s.operands.m.m00.toInt * s.operands.m.m11.toInt - s.operands.m.m01.toInt * s.operands.m.m10.toInt)
        s.operands.mod.toInt = 1 ∧
      s.turns = cmdWrite 0x00000009 :: .core :: cmdWrite 0x00000109 :: .core :: [] :=
  ⟨machine 26 0 key26 zeroV [cmdWrite 0x009, .core, cmdWrite 0x109, .core], rfl, rfl, by decide, by decide, rfl⟩
theorem witness_EncryptThenDecryptReturnsTheBlock :
    ∃ s : State, s.rstIn = false ∧ s.status.busy = false ∧ 2 ≤ s.operands.mod.toInt ∧
      Int.gcd (s.operands.m.m00.toInt * s.operands.m.m11.toInt - s.operands.m.m01.toInt * s.operands.m.m10.toInt)
        s.operands.mod.toInt = 1 ∧
      s.turns = cmdWrite 0x00000004 :: .core :: cmdWrite 0x00000009 :: .core :: cmdWrite 0x00000304 :: .core :: [] ∧
      0 ≤ s.operands.v.v0.toInt ∧ s.operands.v.v0.toInt < s.operands.mod.toInt ∧
      0 ≤ s.operands.v.v1.toInt ∧ s.operands.v.v1.toInt < s.operands.mod.toInt :=
  ⟨machine 26 0 key26 block [cmdWrite 0x004, .core, cmdWrite 0x009, .core, cmdWrite 0x304, .core], rfl, rfl, by decide, by decide,
    rfl, by decide, by decide, by decide, by decide⟩
theorem witness_DetmThenModinvAgreesWithMinv :
    ∃ s s' : State, s.rstIn = false ∧ s.status.busy = false ∧
      s.turns = cmdWrite 0x00000006 :: .core :: cmdWrite 0x00000402 :: .core :: [] ∧
      s' = { s with turns := cmdWrite 0x00000009 :: .core :: [] } ∧ 2 ≤ s.operands.mod.toInt :=
  ⟨machine 26 0 key26 zeroV [cmdWrite 0x006, .core, cmdWrite 0x402, .core], _, rfl, rfl, rfl, rfl, by decide⟩
theorem witness_IgnoredSelectBitsChangeNothing :
    (Instr.norm false false true).opcode = (Instr.norm true true true).opcode ∧
      Instr.norm false false true ≠ Instr.norm true true true ∧ (Instr.norm false false true).readsM = false ∧
      (Instr.norm false false true).readsV = false ∧
      (Instr.norm false false true).ssel = (Instr.norm true true true).ssel := by decide

end Sys2Proof.Tests
end

section
/-! ### The registers of the core: STATUS as a word, the reset values, the interrupt output -/

namespace Sys2Proof.Machine

/-! ### The word of STATUS (10_state.md R23) -/

theorem Status.word_busy (st : Status) : st.word.getLsbD 0 = st.busy := by simp [Status.word]
theorem Status.word_done (st : Status) : st.word.getLsbD 1 = st.done := by simp [Status.word]
theorem Status.word_err (st : Status) : st.word.getLsbD 2 = st.err := by simp [Status.word]
theorem Status.word_ovr (st : Status) : st.word.getLsbD 3 = st.ovr := by simp [Status.word]

theorem Status.word_errcode (st : Status) : st.word.extractLsb' 4 4 = st.errcode := by
  ext i hi
  interval_cases i <;> simp [Status.word]

theorem Status.word_lastop (st : Status) : st.word.extractLsb' 8 5 = st.lastop := by
  ext i hi
  interval_cases i <;> simp [Status.word]

/-- Above LASTOP no field has a bit. -/
theorem Status.word_reserved (st : Status) : st.word.extractLsb' 13 19 = 0 := by
  ext i hi
  have herrcode : st.errcode.getLsbD (13 + i - 4) = false := BitVec.getLsbD_of_ge _ _ (by omega)
  have hlastop : st.lastop.getLsbD (13 + i - 8) = false := BitVec.getLsbD_of_ge _ _ (by omega)
  simp [Status.word, herrcode, hlastop]
  omega

/-- Write 1 to clear, as a choice between the cleared flag and the old one. -/
theorem Status.acknowledged_eq_ite (st : Status) (d : Word) :
    st.acknowledged d = { st with
      done := if d.getLsbD 1 = true then false else st.done
      ovr := if d.getLsbD 3 = true then false else st.ovr } := by
  unfold Status.acknowledged
  cases d.getLsbD 1 <;> cases d.getLsbD 3 <;> simp

/-! ### States with every register at its reset value (10_state.md R41, 70_reset_and_hazards.md R141) -/

/-- Every register of the map that has storage is at its reset value. -/
structure State.Cleared (s : State) : Prop where
  operands : s.operands = OperandRegs.cleared
  status : s.status = Status.cleared
  ie : s.ie = false
  results : s.results = ResultRegs.cleared

theorem reset_cleared : State.reset.Cleared := ⟨rfl, rfl, rfl, rfl⟩

theorem resetRegs_cleared (s : State) : (resetRegs s).Cleared := ⟨rfl, rfl, rfl, rfl⟩

/-- Such a state reads 0 in every register but ID (10_state.md section 2). -/
theorem State.Cleared.readReg_eq_zero {s : State} (h : s.Cleared) {r : Reg} (hr : r ≠ .id) : readReg s r = 0 := by
  obtain ⟨ho, hs, hi, hres⟩ := h
  have same : readReg s r = readReg State.reset r := by
    simp only [readReg, ho, hs, hi, hres]
    rfl
  rw [same]
  cases r with
  | id => exact absurd rfl hr
  | _ => rfl

/-! ### CTRL and the interrupt output (10_state.md R30, R38) -/

theorem readReg_ctrl (s : State) : readReg s .ctrl = if s.ie then 1 else 0 := by
  cases h : s.ie <;> simp [readReg, h]

theorem writeReg_ctrl_softReset (d : Word) (s : State) (h : d.getLsbD 1 = true) : writeReg .ctrl d s = resetRegs s :=
  if_pos h

theorem writeReg_ctrl_enable (d : Word) (s : State) (h : d.getLsbD 1 = false) :
    writeReg .ctrl d s = { s with ie := d.getLsbD 0 } :=
  if_neg (Bool.eq_false_iff.mp h)

theorem irq_iff (s : State) : s.irq = true ↔ s.ie = true ∧ s.status.done = true := by
  simp [State.irq]

theorem irq_of_not_ie {s : State} (h : s.ie = false) : s.irq = false := by
  simp [State.irq, h]

theorem irq_of_not_done {s : State} (h : s.status.done = false) : s.irq = false := by
  simp [State.irq, h]

theorem resetRegs_irq (s : State) : (resetRegs s).irq = false := irq_of_not_ie rfl

/-- The soft reset drops IRQ too, so bit 1 of the word does not matter. -/
theorem writeCtrl_irq (d : Word) (s : State) (h : d.getLsbD 0 = false) : (writeCtrl d s).irq = false := by
  unfold writeCtrl
  split
  · exact resetRegs_irq s
  · exact irq_of_not_ie h

theorem acknowledge_irq (d : Word) (s : State) (h : d.getLsbD 1 = true) : (acknowledge d s).irq = false :=
  irq_of_not_done (by simp [Status.acknowledged, h])

theorem complete_irq (o : CmdOutcome) (s : State) : (complete o s).irq = s.ie := by
  simp [State.irq]

end Sys2Proof.Machine
end

section
/-! ### What one step does to the registers: the inversion lemma `step_effect` by kind of step -/

namespace Sys2Proof.Machine

/-- The turn to come is the host's write of d to register r. -/
def State.HostWrites (s : State) (r : Reg) (d : Word) : Prop := ∃ rest, s.turns = hostWrite r d :: rest

/-- The turn to come is CORE's, named on the list or by its end (entry 2). -/
def State.CoreMoves (s : State) : Prop := s.turns = [] ∨ ∃ rest, s.turns = .core :: rest

/-- The turn to come asserts the reset input, meets it asserted, or is the soft reset. -/
def State.Resets (s : State) : Prop :=
  (∃ rest, s.turns = .resetOn :: rest) ∨ s.rstIn = true ∨
    ∃ d rest, d.getLsbD 1 = true ∧ s.turns = hostWrite .ctrl d :: rest

/-- t has the operands, STATUS, results and LATCH of u, with reset not asserted. -/
structure State.Becomes (t u : State) : Prop where
  rstIn : t.rstIn = false
  operands : t.operands = u.operands
  status : t.status = u.status
  results : t.results = u.results
  latch : t.latch = u.latch

/-- The kinds of step, by what they do to the registers: a step from s to t has one of them (`stepKind_of_step`). -/
inductive StepKind (s t : State) : Prop where
  | idle (ht : t.Becomes s)
  | reset (why : s.Resets) (ht : t.Cleared)
  | completion (hr : s.rstIn = false) (hb : s.status.busy = true) (hc : s.CoreMoves)
      (ht : t.Becomes (complete (latchOutcome s.latch) s))
  | overrun (hb : s.status.busy = true) (d : Word) (hw : s.HostWrites .cmd d) (ht : t.Becomes (overrun s))
  | launch (hr : s.rstIn = false) (hb : s.status.busy = false) (d : Word) (hw : s.HostWrites .cmd d)
      (ht : t.Becomes (launch d s))
  | acknowledge (d : Word) (hw : s.HostWrites .status d) (ht : t.Becomes (acknowledge d s))
  | operandWrite (r : Reg) (d : Word) (hw : s.HostWrites r d)
      (ht : t.Becomes { s with operands := s.operands.write r d })

/-- A turn that is not CORE's stands on the list: only CORE moves at its end. -/
theorem turns_of_taken {s : State} {u : Turn} {rest : List Turn}
    (h : s.turns = u :: rest ∨ (s.turns = [] ∧ u = .core ∧ rest = [])) (hu : u ≠ .core) : s.turns = u :: rest :=
  h.resolve_right fun hnil => hu hnil.2.1

theorem hostWrites_of_taken {s : State} {r : Reg} {d : Word} {rest : List Turn}
    (h : s.turns = hostWrite r d :: rest ∨ (s.turns = [] ∧ hostWrite r d = .core ∧ rest = [])) : s.HostWrites r d :=
  ⟨rest, turns_of_taken h nofun⟩

theorem coreMoves_of_taken {s : State} {rest : List Turn}
    (h : s.turns = .core :: rest ∨ (s.turns = [] ∧ Turn.core = .core ∧ rest = [])) : s.CoreMoves :=
  h.elim (fun hcons => .inr ⟨rest, hcons⟩) fun hnil => .inl hnil.1

/-- A completion reads LATCH alone, so taking the turn off first does not matter (40_command_cycle.md R85). -/
theorem complete_begin_becomes (o : CmdOutcome) (s : State) (rest : List Turn) (hr : s.rstIn = false) :
    (complete o (s.begin rest)).Becomes (complete o s) := by
  cases o <;> exact ⟨hr, rfl, rfl, rfl, rfl⟩

theorem stepKind_of_step {s t : State} (h : step s = .next t) : StepKind s t := by
  obtain ⟨u, rest, b, hu, rfl, ⟨hr, resp, rfl⟩ | ⟨rfl, rfl⟩ | ⟨rfl, rfl⟩ | ⟨hr, resp, rfl⟩ | ⟨hr, rfl, hb, rfl⟩ |
    ⟨hr, hb, d, rfl, rfl⟩ | ⟨hr, hb, d, rfl, rfl⟩ | ⟨hr, d, rfl, rfl⟩ | ⟨hr, d, hd, rfl, rfl⟩ | ⟨hr, d, hd, rfl, rfl⟩ |
    ⟨hr, r, d, -, -, -, rfl, rfl⟩⟩ := step_effect s t h
  · exact .reset (.inr (.inl hr)) ⟨rfl, rfl, rfl, rfl⟩
  · exact .reset (.inl ⟨rest, turns_of_taken hu nofun⟩) ⟨rfl, rfl, rfl, rfl⟩
  · exact .idle ⟨rfl, rfl, rfl, rfl, rfl⟩
  · exact .idle ⟨hr, rfl, rfl, rfl, rfl⟩
  · exact .completion hr hb (coreMoves_of_taken hu) (complete_begin_becomes _ s rest hr)
  · exact .overrun hb d (hostWrites_of_taken hu) ⟨hr, rfl, rfl, rfl, rfl⟩
  · exact .launch hr hb d (hostWrites_of_taken hu) ⟨hr, rfl, rfl, rfl, rfl⟩
  · exact .acknowledge d (hostWrites_of_taken hu) ⟨hr, rfl, rfl, rfl, rfl⟩
  · obtain ⟨rest, hturns⟩ := hostWrites_of_taken hu
    exact .reset (.inr (.inr ⟨d, rest, hd, hturns⟩)) ⟨rfl, rfl, rfl, rfl⟩
  · exact .idle ⟨hr, rfl, rfl, rfl, rfl⟩
  · exact .operandWrite r d (hostWrites_of_taken hu) ⟨hr, rfl, rfl, rfl, rfl⟩

end Sys2Proof.Machine
end

section
/-! ### The invariant of the core, in the parts that a step moves separately -/

namespace Sys2Proof

/-- Every entry has the property. -/
def Mat.All {α : Type} (p : α → Prop) (m : Mat α) : Prop := p m.m00 ∧ p m.m01 ∧ p m.m10 ∧ p m.m11

/-- Both entries have the property. -/
def Vec2.All {α : Type} (p : α → Prop) (v : Vec2 α) : Prop := p v.v0 ∧ p v.v1

theorem Mat.all_map {α β : Type} {p : β → Prop} {f : α → β} (h : ∀ x, p (f x)) (m : Mat α) : (m.map f).All p :=
  ⟨h _, h _, h _, h _⟩

theorem Vec2.all_map {α β : Type} {p : β → Prop} {f : α → β} (h : ∀ x, p (f x)) (v : Vec2 α) : (v.map f).All p :=
  ⟨h _, h _⟩

end Sys2Proof

namespace Sys2Proof.Machine

/-- The clauses of `State.Inv` about STATUS and LATCH. -/
structure Status.Legal (st : Status) (l : Latch) : Prop where
  busy_done : ¬(st.busy = true ∧ st.done = true)
  err_iff : st.err = false ↔ st.errcode = 0
  errcode_le : st.errcode.toNat ≤ 3
  busy_clean : st.busy = true → st.err = false
  busy_lastop : st.busy = true → st.lastop = l.cmd.extractLsb' 0 5
  busy_fits : st.busy = true → l.Fits

/-- The clauses of `State.Inv` about the result registers. -/
structure ResultRegs.Legal (r : ResultRegs) : Prop where
  rS : IsResidueWord r.rS
  rM : r.rM.All IsResidueWord
  rV : r.rV.All IsResidueWord
  rW0 : IsExactRaw r.rW0
  rW1 : IsExactRaw r.rW1
  rDet : IsExactRaw r.rDet

theorem State.Inv.status_legal {s : State} (h : s.Inv) : s.status.Legal s.latch :=
  ⟨h.busy_done, h.err_iff, h.errcode_le, h.busy_clean, h.busy_lastop, h.busy_fits⟩

theorem State.Inv.results_legal {s : State} (h : s.Inv) : s.results.Legal :=
  ⟨h.rS_residue, ⟨h.rM00_residue, h.rM01_residue, h.rM10_residue, h.rM11_residue⟩, ⟨h.rV0_residue, h.rV1_residue⟩,
    h.rW0_exact, h.rW1_exact, h.rDet_exact⟩

/-- The parts give the invariant back, with its clause about the reset input. -/
theorem inv_of_legal {s : State} (hst : s.status.Legal s.latch) (hres : s.results.Legal)
    (hheld : s.rstIn = true → s.Cleared) : s.Inv where
  busy_done := hst.busy_done
  err_iff := hst.err_iff
  errcode_le := hst.errcode_le
  busy_clean := hst.busy_clean
  busy_lastop := hst.busy_lastop
  busy_fits := hst.busy_fits
  rS_residue := hres.rS
  rM00_residue := hres.rM.1
  rM01_residue := hres.rM.2.1
  rM10_residue := hres.rM.2.2.1
  rM11_residue := hres.rM.2.2.2
  rV0_residue := hres.rV.1
  rV1_residue := hres.rV.2
  rW0_exact := hres.rW0
  rW1_exact := hres.rW1
  rDet_exact := hres.rDet
  held h := ⟨(hheld h).operands, (hheld h).status, (hheld h).ie, (hheld h).results⟩

/-- With reset not asserted only STATUS, LATCH and the results matter, so the invariant goes over from u. -/
theorem State.Becomes.inv {t u : State} (h : t.Becomes u) (hst : u.status.Legal u.latch) (hres : u.results.Legal) :
    t.Inv :=
  inv_of_legal (by rwa [h.status, h.latch]) (by rwa [h.results]) fun hr => absurd (h.rstIn.symm.trans hr) nofun

/-! ### The flags keep their clauses -/

theorem Status.legal_of_idle {st : Status} (l : Latch) (hb : st.busy = false) (he : st.err = false ↔ st.errcode = 0)
    (hc : st.errcode.toNat ≤ 3) : st.Legal l where
  busy_done := by simp [hb]
  err_iff := he
  errcode_le := hc
  busy_clean := by simp [hb]
  busy_lastop := by simp [hb]
  busy_fits := by simp [hb]

theorem Status.cleared_legal (l : Latch) : Status.cleared.Legal l :=
  legal_of_idle l rfl (by decide) (by decide)

theorem Status.succeeded_legal (st : Status) (l : Latch) : st.succeeded.Legal l :=
  legal_of_idle l rfl (by simp [Status.succeeded]) (by simp [Status.succeeded])

theorem CmdError.code_ne_zero (e : CmdError) : e.code ≠ 0 := by cases e <;> decide

theorem CmdError.code_le (e : CmdError) : e.code.toNat ≤ 3 := by cases e <;> decide

theorem Status.failed_legal (st : Status) (e : CmdError) (l : Latch) : (st.failed e).Legal l :=
  legal_of_idle l rfl (by simpa [Status.failed] using e.code_ne_zero) e.code_le

theorem complete_status_legal (o : CmdOutcome) (s : State) : (complete o s).status.Legal (complete o s).latch := by
  cases o with
  | ok w => exact s.status.succeeded_legal _
  | err e => exact s.status.failed_legal e _

theorem launch_status_legal (d : Word) (s : State) : (launch d s).status.Legal (launch d s).latch where
  busy_done := by simp [Status.launched]
  err_iff := by simp [Status.launched]
  errcode_le := by simp [Status.launched]
  busy_clean _ := rfl
  busy_lastop _ := rfl
  busy_fits _ := launch_fits d s

/-- OVR stands in no clause. -/
theorem Status.Legal.overrun {st : Status} {l : Latch} (h : st.Legal l) : st.overrun.Legal l :=
  ⟨h.busy_done, h.err_iff, h.errcode_le, h.busy_clean, h.busy_lastop, h.busy_fits⟩

/-- An acknowledge can only lower DONE. -/
theorem Status.Legal.acknowledged {st : Status} {l : Latch} (h : st.Legal l) (d : Word) : (st.acknowledged d).Legal l where
  busy_done := fun ⟨hb, hd⟩ => h.busy_done ⟨hb, (Bool.and_eq_true_iff.mp hd).1⟩
  err_iff := h.err_iff
  errcode_le := h.errcode_le
  busy_clean := h.busy_clean
  busy_lastop := h.busy_lastop
  busy_fits := h.busy_fits

/-! ### What a command writes is a residue or an exact result -/

/-- Words below 2^31 in R_S, R_M and R_V and exact results in the raw registers, where the command writes them. -/
structure Writes.Legal (w : Writes) : Prop where
  rS : ∀ x ∈ w.rS, IsResidueWord x := by simp
  rM : ∀ m ∈ w.rM, m.All IsResidueWord := by simp
  rV : ∀ v ∈ w.rV, v.All IsResidueWord := by simp
  rW : ∀ p ∈ w.rW, IsExactRaw p.1 ∧ IsExactRaw p.2 := by simp
  rDet : ∀ x ∈ w.rDet, IsExactRaw x := by simp

/-- A success writes legal values; a failure writes none (40_command_cycle.md R87). -/
def CmdOutcome.Legal (o : CmdOutcome) : Prop := ∀ w, o = .ok w → w.Legal

theorem CmdOutcome.ok_legal {w : Writes} (h : w.Legal) : (CmdOutcome.ok w).Legal := fun _ hw => by cases hw; exact h

theorem CmdOutcome.err_legal (e : CmdError) : (CmdOutcome.err e).Legal := nofun

/-- The check of N gives a command its N ≥ 2 (40_command_cycle.md R86). -/
theorem withModulus_legal {l : Latch} {o : CmdOutcome} (h : 2 ≤ l.n → o.Legal) : (withModulus l o).Legal := by
  by_cases hn : l.n < 2
  · rw [withModulus_of_lt l o hn]
    exact CmdOutcome.err_legal _
  · rw [withModulus_of_le l o (by omega)]
    exact h (by omega)

/-- A register that is written or left keeps a property of both its old value and what is written. -/
theorem getD_of_forall_mem {α : Type} {p : α → Prop} {o : Option α} {a : α} (ho : ∀ x ∈ o, p x) (ha : p a) :
    p (o.getD a) := by
  cases o with
  | none => exact ha
  | some x => exact ho x rfl

theorem ResultRegs.Legal.commit {r : ResultRegs} {w : Writes} (hr : r.Legal) (hw : w.Legal) : (w.commit r).Legal where
  rS := getD_of_forall_mem hw.rS hr.rS
  rM := getD_of_forall_mem hw.rM hr.rM
  rV := getD_of_forall_mem hw.rV hr.rV
  rW0 := getD_of_forall_mem (Option.forall_mem_map.mpr fun p hp => (hw.rW p hp).1) hr.rW0
  rW1 := getD_of_forall_mem (Option.forall_mem_map.mpr fun p hp => (hw.rW p hp).2) hr.rW1
  rDet := getD_of_forall_mem hw.rDet hr.rDet

theorem ResultRegs.Legal.complete {o : CmdOutcome} {s : State} (hs : s.results.Legal) (ho : o.Legal) :
    (complete o s).results.Legal := by
  cases o with
  | ok w => exact hs.commit (ho w rfl)
  | err e => exact hs

theorem ResultRegs.cleared_legal : ResultRegs.cleared.Legal := by
  constructor <;> simp [ResultRegs.cleared, IsResidueWord, IsExactRaw, Mat.All, Vec2.All]

/-- A residue of a 32-bit modulus is below 2^31 (41_modular_arithmetic.md R103). -/
theorem zext32_normZ_residue {n : Int} (hn : FitsInt32 n) (h2 : 2 ≤ n) (x : Int) : IsResidueWord (zext32 (normZ x n)) := by
  obtain ⟨h0, hlt⟩ := normZ_range x n (by omega)
  have hnat := zext32_toNat (normZ x n) h0 (by have := hn.2; omega)
  unfold IsResidueWord
  have := hn.2
  omega

/-- A product of two operands has magnitude at most 2^62 (42_matrix_ops.md R105). -/
theorem FitsInt32.abs_mul_le {x y : Int} (hx : FitsInt32 x) (hy : FitsInt32 y) : |x * y| ≤ 2 ^ 62 := by
  have hx' : |x| ≤ 2 ^ 31 := abs_le.mpr ⟨hx.1, hx.2.le⟩
  have hy' : |y| ≤ 2 ^ 31 := abs_le.mpr ⟨hy.1, hy.2.le⟩
  calc |x * y| = |x| * |y| := abs_mul x y
    _ ≤ 2 ^ 31 * 2 ^ 31 := mul_le_mul hx' hy' (abs_nonneg y) (by norm_num)
    _ = 2 ^ 62 := by norm_num

theorem sext96_exact {v : Int} (h : |v| ≤ 2 ^ 63) : IsExactRaw (sext96 v) := by
  obtain ⟨hlo, hhi⟩ := abs_le.mp h
  unfold IsExactRaw
  rw [sext96_toInt v (by omega) (by omega)]
  exact ⟨hlo, hhi⟩

/-- A row of the product is exact (42_matrix_ops.md R106). -/
theorem sext96_row_exact {a b c d : Int} (ha : FitsInt32 a) (hb : FitsInt32 b) (hc : FitsInt32 c) (hd : FitsInt32 d) :
    IsExactRaw (sext96 (a * b + c * d)) :=
  sext96_exact <| (abs_add_le _ _).trans <| by linarith [ha.abs_mul_le hb, hc.abs_mul_le hd]

theorem Latch.Fits.matVec_exact {l : Latch} (h : l.Fits) :
    IsExactRaw (sext96 (matVec l.m l.v).v0) ∧ IsExactRaw (sext96 (matVec l.m l.v).v1) :=
  ⟨sext96_row_exact h.m00 h.v0 h.m01 h.v1, sext96_row_exact h.m10 h.v0 h.m11 h.v1⟩

theorem Latch.Fits.determinant_exact {l : Latch} (h : l.Fits) : IsExactRaw (sext96 (determinant l.m)) :=
  sext96_exact <| (abs_sub _ _).trans <| by linarith [h.m00.abs_mul_le h.m11, h.m01.abs_mul_le h.m10]

/-- An inverse that `eea` finds is a residue (41_modular_arithmetic.md R98). -/
theorem zext32_eea_residue {a n x : Int} (hn : FitsInt32 n) (h2 : 2 ≤ n) (h : eea a n = some x) :
    IsResidueWord (zext32 x) := by
  obtain ⟨c, -, rfl⟩ := Option.map_eq_some_iff.mp h
  exact zext32_normZ_residue hn h2 c

theorem opNorm_legal {l : Latch} (h : l.Fits) (h2 : 2 ≤ l.n) : (opNorm l).Legal :=
  CmdOutcome.ok_legal { rS := by simpa using zext32_normZ_residue h.n h2 l.s }

theorem opModinv_legal {l : Latch} (h : l.Fits) (h2 : 2 ≤ l.n) : (opModinv l).Legal := by
  unfold opModinv
  split
  next x hx => exact CmdOutcome.ok_legal { rS := by simpa using zext32_eea_residue h.n h2 hx }
  next => exact CmdOutcome.err_legal _

theorem opMvmul_legal {l : Latch} (h : l.Fits) : (opMvmul l).Legal :=
  CmdOutcome.ok_legal { rW := by simpa using h.matVec_exact }

theorem opMvmulm_legal {l : Latch} (h : l.Fits) (h2 : 2 ≤ l.n) : (opMvmulm l).Legal :=
  CmdOutcome.ok_legal
    { rW := by simpa using h.matVec_exact
      rV := by simpa using Vec2.all_map (zext32_normZ_residue h.n h2) (matVec l.m l.v) }

theorem opDet_legal {l : Latch} (h : l.Fits) : (opDet l).Legal :=
  CmdOutcome.ok_legal { rDet := by simpa using h.determinant_exact }

theorem opDetm_legal {l : Latch} (h : l.Fits) (h2 : 2 ≤ l.n) : (opDetm l).Legal :=
  CmdOutcome.ok_legal
    { rDet := by simpa using h.determinant_exact
      rS := by simpa using zext32_normZ_residue h.n h2 (determinant l.m) }

theorem opAdj_legal {l : Latch} (h : l.Fits) (h2 : 2 ≤ l.n) : (opAdj l).Legal :=
  CmdOutcome.ok_legal { rM := by simpa using Mat.all_map (zext32_normZ_residue h.n h2) (adjugateRaw l.m) }

theorem opSmulm_legal {l : Latch} (h : l.Fits) (h2 : 2 ≤ l.n) : (opSmulm l).Legal :=
  CmdOutcome.ok_legal { rM := by simpa using Mat.all_map (fun x => zext32_normZ_residue h.n h2 (x * l.s)) l.m }

theorem opMinv_legal {l : Latch} (h : l.Fits) (h2 : 2 ≤ l.n) : (opMinv l).Legal := by
  unfold opMinv
  split
  next => exact CmdOutcome.err_legal _
  next dinv hd =>
    exact CmdOutcome.ok_legal
      { rDet := by simpa using h.determinant_exact
        rS := by simpa using zext32_eea_residue h.n h2 hd
        rM := by simpa using Mat.all_map (fun x => zext32_normZ_residue h.n h2 (normZ x l.n * dinv)) (adjugateRaw l.m) }

theorem outcomeOf_legal (i : Instr) {l : Latch} (h : l.Fits) : (outcomeOf i l).Legal := by
  cases i with
  | norm => exact withModulus_legal (opNorm_legal h)
  | modinv => exact withModulus_legal (opModinv_legal h)
  | mvmul => exact opMvmul_legal h
  | mvmulm => exact withModulus_legal (opMvmulm_legal h)
  | det => exact opDet_legal h
  | detm => exact withModulus_legal (opDetm_legal h)
  | adj => exact withModulus_legal (opAdj_legal h)
  | smulm => exact withModulus_legal (opSmulm_legal h)
  | minv => exact withModulus_legal (opMinv_legal h)

theorem latchOutcome_legal {l : Latch} (h : l.Fits) : (latchOutcome l).Legal := by
  unfold latchOutcome
  split
  next i _ => exact outcomeOf_legal i h
  next => exact CmdOutcome.err_legal _

/-! ### The invariant at reset and after a step -/

theorem State.Cleared.inv {s : State} (h : s.Cleared) : s.Inv :=
  inv_of_legal (h.status ▸ Status.cleared_legal s.latch) (h.results ▸ ResultRegs.cleared_legal) fun _ => h

/-- Settles O44: the reset state has every register at its reset value. -/
theorem invariantHoldsAtReset : Obligations.InvariantHoldsAtReset :=
  reset_cleared.inv

/-- Settles O45, by the kind of the step: a reset clears what the clauses speak of; a launch latches 32-bit operands, so the
completion that follows writes residues and exact results. -/
theorem everyStepKeepsTheInvariant : Obligations.EveryStepKeepsTheInvariant := by
  intro s t hs h
  have hst := hs.status_legal
  have hres := hs.results_legal
  cases stepKind_of_step h with
  | idle ht => exact ht.inv hst hres
  | reset _ ht => exact ht.inv
  | completion _ hb _ ht =>
    exact ht.inv (complete_status_legal _ s) (hres.complete (latchOutcome_legal (hs.busy_fits hb)))
  | overrun _ _ _ ht => exact ht.inv hst.overrun hres
  | launch _ _ d _ ht => exact ht.inv (launch_status_legal d s) hres
  | acknowledge d _ ht => exact ht.inv (hst.acknowledged d) hres
  | operandWrite r d _ ht => exact ht.inv hst hres

end Sys2Proof.Machine
end

section
/-! ### What moves each flag and each register: the statements about every step -/

namespace Sys2Proof.Machine

/-- Settles O47: of the kinds of step only a launch raises BUSY, and only a completion or a reset lowers it. -/
theorem busyMovesOnlyByLaunchCompletionReset : Obligations.BusyMovesOnlyByLaunchCompletionReset := by
  intro s t h
  refine ⟨fun hs ht => ?rises, fun hs ht => ?falls⟩
  case rises =>
    cases stepKind_of_step h with
    | launch hr _ d hw _ => exact ⟨hr, d, hw⟩
    | reset _ hc => simp [hc.status, Status.cleared] at ht
    | idle hb | completion _ _ _ hb | overrun _ _ _ hb | acknowledge _ _ hb | operandWrite _ _ _ hb =>
      simp [hb.status, Status.overrun, Status.acknowledged, hs] at ht
  case falls =>
    cases stepKind_of_step h with
    | completion _ _ hc _ => exact hc.elim .inl fun hcore => .inr (.inl hcore)
    | reset why _ => exact .inr (.inr why)
    | idle hb | launch _ _ _ _ hb | overrun _ _ _ hb | acknowledge _ _ hb | operandWrite _ _ _ hb =>
      simp [hb.status, Status.overrun, Status.acknowledged, Status.launched, hs] at ht

/-- Settles O48: only an overrun raises OVR, and only its acknowledge or a reset lowers it. -/
theorem overrunFlagIsSticky : Obligations.OverrunFlagIsSticky := by
  intro s t h
  refine ⟨fun hs ht => ?rises, fun hs ht => ?falls⟩
  case rises =>
    cases stepKind_of_step h with
    | overrun hbusy d hw _ => exact ⟨hbusy, d, hw⟩
    | reset _ hc => simp [hc.status, Status.cleared] at ht
    | idle hb | completion _ _ _ hb | launch _ _ _ _ hb | acknowledge _ _ hb | operandWrite _ _ _ hb =>
      simp [hb.status, Status.launched, Status.acknowledged, hs] at ht
  case falls =>
    cases stepKind_of_step h with
    | acknowledge d hw hb =>
      obtain ⟨rest, hturns⟩ := hw
      have hd : d.getLsbD 3 = true := by simpa [hb.status, Status.acknowledged, hs] using ht
      exact .inr (.inr (.inl ⟨d, rest, hd, hturns⟩))
    | reset why _ => exact why.imp_right fun h => h.imp_right .inr
    | idle hb | completion _ _ _ hb | launch _ _ _ _ hb | overrun _ _ _ hb | operandWrite _ _ _ hb =>
      simp [hb.status, Status.launched, Status.overrun, hs] at ht

/-- Settles O49: only a completion raises DONE, and only a launch, its acknowledge or a reset lowers it. -/
theorem doneMovesOnlyByCompletionLaunchAckReset : Obligations.DoneMovesOnlyByCompletionLaunchAckReset := by
  intro s t h
  refine ⟨fun hs ht => ?rises, fun hs ht => ?falls⟩
  case rises =>
    cases stepKind_of_step h with
    | completion hr hbusy hc _ => exact ⟨hbusy, hr, hc⟩
    | reset _ hc => simp [hc.status, Status.cleared] at ht
    | idle hb | launch _ _ _ _ hb | overrun _ _ _ hb | acknowledge _ _ hb | operandWrite _ _ _ hb =>
      simp [hb.status, Status.launched, Status.overrun, Status.acknowledged, hs] at ht
  case falls =>
    cases stepKind_of_step h with
    | launch _ _ d hw hb =>
      obtain ⟨rest, hturns⟩ := hw
      exact .inr (.inr (.inl ⟨d, rest, hturns, by rw [hb.status]; rfl⟩))
    | acknowledge d hw hb =>
      obtain ⟨rest, hturns⟩ := hw
      have hd : d.getLsbD 1 = true := by simpa [hb.status, Status.acknowledged, hs] using ht
      exact .inr (.inr (.inr (.inl ⟨d, rest, hd, hturns⟩)))
    | reset why _ => exact why.imp_right fun h => h.imp_right fun h => .inr (.inr h)
    | idle hb | completion _ _ _ hb | overrun _ _ _ hb | operandWrite _ _ _ hb =>
      simp [hb.status, Status.overrun, hs] at ht

/-- Settles O50: the other kinds of step keep ERR, ERRCODE and LASTOP, and a completion keeps LASTOP. -/
theorem errorReportMovesOnlyByCompletionLaunchReset : Obligations.ErrorReportMovesOnlyByCompletionLaunchReset := by
  intro s t h launches resets completes
  refine ⟨fun hmoved => ?report, fun hmoved => ?lastop⟩
  case report =>
    cases stepKind_of_step h with
    | completion _ hbusy hc _ => exact .inl ⟨hbusy, hc⟩
    | launch _ hidle d hw _ => exact .inr (.inl ⟨hidle, d, hw⟩)
    | reset why _ => exact .inr (.inr why)
    | idle hb | overrun _ _ _ hb | acknowledge _ _ hb | operandWrite _ _ _ hb =>
      simp [hb.status, Status.overrun, Status.acknowledged] at hmoved
  case lastop =>
    cases stepKind_of_step h with
    | launch _ hidle d hw _ => exact .inl ⟨hidle, d, hw⟩
    | reset why _ => exact .inr why
    | idle hb | completion _ _ _ hb | overrun _ _ _ hb | acknowledge _ _ hb | operandWrite _ _ _ hb =>
      simp [hb.status, Status.overrun, Status.acknowledged] at hmoved

/-- Settles O51: a failing completion writes no result, and no other step but a reset writes one. -/
theorem resultsChangeOnlyByCompletionOrReset : Obligations.ResultsChangeOnlyByCompletionOrReset := by
  intro s t h hmoved
  cases stepKind_of_step h with
  | completion hr hbusy hc hb =>
    obtain ⟨w, -, ho⟩ | ⟨e, -, ho⟩ := complete_cases (latchOutcome s.latch) s <;> rw [ho] at hb
    · exact .inl ⟨hbusy, hr, hc, by rw [hb.status]; rfl, by rw [hb.status]; rfl⟩
    · exact absurd hb.results hmoved
  | reset why hc => exact .inr ⟨hc.results, why⟩
  | idle hb | launch _ _ _ _ hb | overrun _ _ _ hb | acknowledge _ _ hb | operandWrite _ _ _ hb =>
    exact absurd hb.results hmoved

/-- An operand register is read from the operand registers alone. -/
theorem readReg_congr_operands {s t : State} {r : Reg} (hr : r ∈ [Reg.mod, .a, .m00, .m01, .m10, .m11, .v0, .v1])
    (h : t.operands = s.operands) : readReg t r = readReg s r := by
  fin_cases hr <;> simp [readReg, h]

/-- After a write to register r' an operand register holds the word, where it is r', and its old value elsewhere
(20_memory.md R48): the read's table against the write's, register by register. -/
theorem readReg_write_operands {s t : State} {r r' : Reg} {d : Word}
    (hr : r ∈ [Reg.mod, .a, .m00, .m01, .m10, .m11, .v0, .v1]) (h : t.operands = s.operands.write r' d) :
    readReg t r = if r' = r then d else readReg s r := by
  fin_cases hr <;> cases r' <;> simp [readReg, h, OperandRegs.write]

/-- Settles O52: only a write through the map and a reset touch the operand registers, and the write touches its own. -/
theorem operandsChangeOnlyByHostWriteOrReset : Obligations.OperandsChangeOnlyByHostWriteOrReset := by
  intro s t r hr h hmoved
  have changed : t.operands ≠ s.operands := fun hkept => hmoved (readReg_congr_operands hr hkept)
  cases stepKind_of_step h with
  | operandWrite r' d hw hb =>
    have hread := readReg_write_operands hr hb.operands
    split at hread
    next heq =>
      subst heq
      obtain ⟨rest, hturns⟩ := hw
      exact .inl ⟨d, rest, hturns, hread⟩
    next => exact absurd hread hmoved
  | reset why hc => exact .inr ⟨hc.readReg_eq_zero (by rintro rfl; simp at hr), why⟩
  | completion _ _ _ hb => exact absurd (hb.operands.trans (complete_operands _ s)) changed
  | idle hb | launch _ _ _ _ hb | overrun _ _ _ hb | acknowledge _ _ hb => exact absurd hb.operands changed

end Sys2Proof.Machine
end

section
/-! ### STATUS, CTRL, IRQ and the reset state, as the host sees them -/

namespace Sys2Proof.Machine

/-- Settles O36, from the lemmas on the word of STATUS and the step of a host write. -/
theorem statusReadsFieldsAndClearsByWritingOne : Obligations.StatusReadsFieldsAndClearsByWritingOne := by
  intro s
  refine ⟨⟨s.status.word_busy, s.status.word_done, s.status.word_err, s.status.word_ovr, s.status.word_errcode,
    s.status.word_lastop, s.status.word_reserved⟩, fun d rest hr hturns => ?_⟩
  rw [step_write s .status d rest hr hturns]
  simp only [writeReg, acknowledge, begin_status, Status.acknowledged_eq_ite]
  rfl

/-- Settles O37, by bit 1 of the word. -/
theorem ctrlWriteSetsEnableOrResets : Obligations.CtrlWriteSetsEnableOrResets := by
  intro s d rest hr hturns
  rw [step_write s .ctrl d rest hr hturns]
  refine ⟨readReg_ctrl s, fun hd => ?enable, fun hd => ?reset⟩
  case enable =>
    rw [writeReg_ctrl_enable d _ hd]
    rfl
  case reset =>
    have hc : State.Cleared { resetRegs (s.begin rest) with response := some .okWrite } := ⟨rfl, rfl, rfl, rfl⟩
    rw [writeReg_ctrl_softReset d _ hd]
    exact ⟨_, rfl, rfl, rfl, hr, hc.ie, fun r hid => hc.readReg_eq_zero hid, rfl⟩

/-- Settles O38: each event's own lemma about IRQ; a completion is `complete` of some outcome. -/
theorem interruptRisesOnCompletionAndFalls : Obligations.InterruptRisesOnCompletionAndFalls := by
  intro s
  refine ⟨irq_iff s, fun d hd => acknowledge_irq d s hd, fun d => irq_of_not_done rfl,
    fun d hd => writeCtrl_irq d s hd, resetRegs_irq s, rfl, fun t ht => ?_⟩
  rw [completion_eq] at ht
  cases ht
  exact complete_irq _ s

/-- Settles O41: the reset state has every register at its reset value. -/
theorem resetStateReadsZeroButId : Obligations.ResetStateReadsZeroButId :=
  ⟨fun _ hr => reset_cleared.readReg_eq_zero hr, rfl, irq_of_not_ie rfl, rfl, rfl⟩

end Sys2Proof.Machine
end

section
/-! ### The host port, access by access: reads, operand and read-only writes, bus errors, the bytes of the window -/

namespace Sys2Proof.Machine

/-! ### Reads (20_memory.md R47) -/

/-- The registers of the map in the order of their offsets (10_state.md section 2). -/
def Reg.all : List Reg :=
  [.id, .cmd, .status, .ctrl, .mod, .a, .m00, .m01, .m10, .m11, .v0, .v1, .rS, .rM00, .rM01, .rM10, .rM11, .rV0, .rV1,
   .rW0w0, .rW0w1, .rW0w2, .rW1w0, .rW1w1, .rW1w2, .rDetw0, .rDetw1, .rDetw2]

/-- s after an access that took the turn and got this response, with no register touched. -/
def State.answered (s : State) (rest : List Turn) (resp : Response) : State :=
  { s with turns := rest, response := some resp }

@[simp] theorem answered_rstIn (s : State) (rest : List Turn) (resp : Response) :
    (s.answered rest resp).rstIn = s.rstIn := rfl
@[simp] theorem answered_turns (s : State) (rest : List Turn) (resp : Response) :
    (s.answered rest resp).turns = rest := rfl
@[simp] theorem answered_response (s : State) (rest : List Turn) (resp : Response) :
    (s.answered rest resp).response = some resp := rfl

/-- A register reads the same after a plain answer. -/
@[simp] theorem readReg_answered (s : State) (rest : List Turn) (resp : Response) (r : Reg) :
    readReg (s.answered rest resp) r = readReg s r := by
  cases r <;> rfl

/-- A host read answers the register's value and touches no register. -/
theorem step_read_answered (s : State) (r : Reg) (rest : List Turn) (hr : s.rstIn = false)
    (h : s.turns = .host (.read (Config.base + r.offset) 4) :: rest) :
    step s = .next (s.answered rest (.okRead (readReg s r))) :=
  step_read s r rest hr h

/-- Settles O32: the table of offsets and values is the register map, each register with what it reads. -/
theorem readReturnsTheRegisterAtItsOffset : Obligations.ReadReturnsTheRegisterAtItsOffset := by
  intro s rest hr p hp hturns
  have hmap : p ∈ Reg.all.map fun r => (r.offset, readReg s r) := by
    simp only [Reg.all, List.map_cons, readReg_ctrl]
    exact hp
  obtain ⟨r, -, rfl⟩ := List.mem_map.mp hmap
  exact step_read_answered s r rest hr hturns

/-! ### Bus errors (20_memory.md R45, R46, R50, R51) -/

/-- No register stands in a hole of the map (20_memory.md R50). -/
theorem offset_not_mem_holes (r : Reg) : r.offset ∉ [0x030, 0x034, 0x038, 0x03C, 0x05C] := by cases r <;> decide

/-- A bad address or size reaches no register: an access that reaches one has size 4 and the register's own address. -/
theorem target_eq_none {addr size : Nat}
    (h : addr % 4 ≠ 0 ∨ size ≠ 4 ∨ (∃ off ∈ [0x030, 0x034, 0x038, 0x03C, 0x05C], addr = Config.base + off) ∨
      (Config.base + 0x084 ≤ addr ∧ addr < Config.base + 0x100)) :
    target addr size = none := by
  refine Option.eq_none_iff_forall_ne_some.mpr fun r hreg => ?_
  obtain ⟨rfl, rfl⟩ := target_some addr size r hreg
  obtain ⟨haligned, hlast⟩ := offset_bounds r
  obtain hmis | hsize | ⟨off, hoff, heq⟩ | ⟨habove, -⟩ := h
  · exact hmis ((base_mod r.offset).trans haligned)
  · exact hsize rfl
  · exact offset_not_mem_holes r (Nat.add_left_cancel heq ▸ hoff)
  · omega

/-- An access that reaches no register gets `buserror`, whichever way it goes. -/
theorem serve_of_target_none {a : Access} {addr size : Nat} (ha : a = .read addr size ∨ ∃ d, a = .write addr size d)
    (h : target addr size = none) (s : State) : serve a s = { s with response := some .busError } := by
  obtain rfl | ⟨d, rfl⟩ := ha <;> simp [serve, h]

/-- Settles O33: such an access reaches no register. -/
theorem badAccessGetsBusError : Obligations.BadAccessGetsBusError := by
  intro s a rest addr size hr hturns ha hbad
  rw [step_host s a rest hr hturns, serve_of_target_none ha (target_eq_none hbad)]
  rfl

/-! ### Writes to the operand and the read-only registers (20_memory.md R48, R49) -/

/-- Outside CMD, STATUS and CTRL a write touches the operand registers alone. -/
theorem writeReg_of_ne_control {r : Reg} (h : r ∉ [Reg.cmd, .status, .ctrl]) (d : Word) (s : State) :
    writeReg r d s = { s with operands := s.operands.write r d } := by
  cases r with
  | cmd | status | ctrl => simp at h
  | _ => rfl

theorem writeReg_readOnly {r : Reg} (hcontrol : r ∉ [Reg.cmd, .status, .ctrl])
    (hoperand : r ∉ [Reg.mod, .a, .m00, .m01, .m10, .m11, .v0, .v1]) (d : Word) (s : State) : writeReg r d s = s := by
  rw [writeReg_of_ne_control hcontrol, write_readOnly _ _ _ hoperand]

/-- What is no operand register is read from STATUS, CTRL and the results. -/
theorem readReg_with_operands {r : Reg} (h : r ∉ [Reg.mod, .a, .m00, .m01, .m10, .m11, .v0, .v1]) (s : State)
    (o : OperandRegs) : readReg { s with operands := o } r = readReg s r := by
  cases r with
  | mod | a | m00 | m01 | m10 | m11 | v0 | v1 => simp at h
  | _ => rfl

/-- An operand write is seen in its own register and in no other. -/
theorem readReg_operandWrite {r : Reg} (hr : r ∈ [Reg.mod, .a, .m00, .m01, .m10, .m11, .v0, .v1]) (d : Word) (s : State)
    (r' : Reg) : readReg { s with operands := s.operands.write r d } r' = if r = r' then d else readReg s r' := by
  by_cases hr' : r' ∈ [Reg.mod, .a, .m00, .m01, .m10, .m11, .v0, .v1]
  · exact readReg_write_operands hr' rfl
  · rw [readReg_with_operands hr', if_neg (by rintro rfl; exact hr' hr)]

/-- Settles O34: the step is the operand write, and the answer touches no register. -/
theorem operandWriteChangesOnlyItsRegister : Obligations.OperandWriteChangesOnlyItsRegister := by
  intro s d rest r hmem hr hturns
  have hcontrol : r ∉ [Reg.cmd, .status, .ctrl] := by fin_cases hmem <;> decide
  have hread := readReg_operandWrite hmem d s
  refine ⟨State.answered { s with operands := s.operands.write r d } rest .okWrite, ?step, ?own, fun r' hne => ?other, rfl⟩
  case step =>
    rw [step_write s r d rest hr hturns, writeReg_of_ne_control hcontrol]
    rfl
  case own => rw [readReg_answered, hread, if_pos rfl]
  case other => rw [readReg_answered, hread, if_neg (Ne.symm hne)]

/-- The registers of the map that ignore a write (20_memory.md R49). -/
def Reg.readOnly : List Reg :=
  Reg.all.filter fun r => r ∉ [Reg.cmd, .status, .ctrl] ∧ r ∉ [Reg.mod, .a, .m00, .m01, .m10, .m11, .v0, .v1]

/-- Settles O35: the offsets listed are those of the registers that are neither control nor operand registers. -/
theorem readOnlyWriteIsIgnored : Obligations.ReadOnlyWriteIsIgnored := by
  intro s d rest off hoff hr hturns
  have hmap : off ∈ Reg.readOnly.map Reg.offset := hoff
  obtain ⟨r, hreg, rfl⟩ := List.mem_map.mp hmap
  obtain ⟨hcontrol, hoperand⟩ := of_decide_eq_true (List.mem_filter.mp hreg).2
  rw [step_write s r d rest hr hturns, writeReg_readOnly hcontrol hoperand]
  rfl

/-! ### The bytes of the window (20_memory.md R44) -/

/-- A word is its four bytes joined, byte 3 the highest. -/
theorem wordByte_join (w : Word) :
    w = (wordByte w 3 ++ wordByte w 2 ++ wordByte w 1 ++ wordByte w 0 : BitVec (8 + 8 + 8 + 8)) := by
  simp only [wordByte]
  rw [BitVec.extractLsb'_append_extractLsb'_eq_extractLsb' (show 8 * 3 = 8 * 2 + 8 from rfl),
    BitVec.extractLsb'_append_extractLsb'_eq_extractLsb' (show 8 * 2 = 8 * 1 + 8 from rfl),
    BitVec.extractLsb'_append_extractLsb'_eq_extractLsb' (show 8 * 1 = 8 * 0 + 8 from rfl)]
  exact BitVec.extractLsb'_eq_self.symm

/-- Byte k at a register's address is byte k of its value: the offset is aligned, so `/ 4` finds the register and `% 4`
the byte. -/
theorem windowByte_offset (s : State) (r : Reg) {k : Nat} (hk : k < 4) :
    windowByte s (Config.base + r.offset + k) = some (wordByte (readReg s r) k) := by
  obtain ⟨haligned, hlast⟩ := offset_bounds r
  have hword : 4 * ((r.offset + k) / 4) = r.offset := by omega
  have hbyte : (r.offset + k) % 4 = k := by omega
  simp [windowByte, Nat.add_assoc, offsetOf_base (r.offset + k) (by omega), base_mod, hword, hbyte]

/-- Settles O39, byte by byte. -/
theorem windowBytesAreLittleEndian : Obligations.WindowBytesAreLittleEndian := fun s r =>
  ⟨_, _, _, _, windowByte_offset s r (k := 0) (by decide), windowByte_offset s r (k := 1) (by decide),
    windowByte_offset s r (k := 2) (by decide), windowByte_offset s r (k := 3) (by decide), wordByte_join _⟩

/-! ### The three words of a raw register (20_memory.md R53, 10_state.md R34) -/

/-- A raw value is its three words joined, word 2 the highest. -/
theorem rawWord_join (w : Raw) : w = (rawWord w 2 ++ rawWord w 1 ++ rawWord w 0 : BitVec (32 + 32 + 32)) := by
  simp only [rawWord]
  rw [BitVec.extractLsb'_append_extractLsb'_eq_extractLsb' (show 32 * 2 = 32 * 1 + 32 from rfl),
    BitVec.extractLsb'_append_extractLsb'_eq_extractLsb' (show 32 * 1 = 32 * 0 + 32 from rfl)]
  exact BitVec.extractLsb'_eq_self.symm

/-- The value of a raw register (10_state.md R34). -/
def RawReg.value (x : RawReg) (s : State) : Raw :=
  match x with
  | .rW0 => s.results.rW0
  | .rW1 => s.results.rW1
  | .rDet => s.results.rDet

/-- A raw register is read at three registers of the map, each with its word of the value, word 0 first. -/
theorem RawReg.words_read (x : RawReg) (s : State) :
    ∃ r₀ r₁ r₂, x.words = [r₀, r₁, r₂] ∧ readReg s r₀ = rawWord (x.value s) 0 ∧
      readReg s r₁ = rawWord (x.value s) 1 ∧ readReg s r₂ = rawWord (x.value s) 2 := by
  cases x <;> exact ⟨_, _, _, rfl, rfl, rfl, rfl⟩

/-- Three host reads in a row each answer the value their register has before the first. -/
theorem step_three_reads (s : State) (r₀ r₁ r₂ : Reg) (rest : List Turn) (hr : s.rstIn = false)
    (h : s.turns = hostTurns ([r₀, r₁, r₂].map fun r => PortOp.r r.offset) ++ rest) :
    ∃ t₁ t₂ t₃, step s = .next t₁ ∧ step t₁ = .next t₂ ∧ step t₂ = .next t₃ ∧
      t₁.response = some (.okRead (readReg s r₀)) ∧ t₂.response = some (.okRead (readReg s r₁)) ∧
      t₃.response = some (.okRead (readReg s r₂)) := by
  refine ⟨_, _, _, step_read_answered s r₀ _ hr h, step_read_answered _ r₁ _ hr rfl, step_read_answered _ r₂ _ hr rfl,
    ?_, ?_, ?_⟩ <;> simp

/-- Settles O40: the three reads answer the three words, and the words joined are the value. -/
theorem rawReadReturnsOneValue : Obligations.RawReadReturnsOneValue := by
  intro s x rest hr hturns
  obtain ⟨r₀, r₁, r₂, hwords, hlow, hmid, hhigh⟩ := x.words_read s
  rw [hwords] at hturns
  obtain ⟨t₁, t₂, t₃, hfirst, hsecond, hthird, ha, hb, hc⟩ := step_three_reads s r₀ r₁ r₂ rest hr hturns
  rw [hlow] at ha
  rw [hmid] at hb
  rw [hhigh] at hc
  exact ⟨t₁, t₂, t₃, _, _, _, hfirst, hsecond, hthird, ha, hb, hc, rawWord_join (x.value s)⟩

end Sys2Proof.Machine
end

section
/-! ### The command word: its fields, decoding and encoding (30_encoding.md R61 to R74) -/

namespace Sys2Proof

open Machine

/-! ### A word is the sum of its fields (30_encoding.md R61) -/

theorem opField_toNat (w : Word) : (opField w).toNat = w.toNat % 32 := by
  simp [opField]

theorem reservedLow_toNat (w : Word) : (w.extractLsb' 5 3).toNat = w.toNat / 32 % 8 := by
  simp [Nat.shiftRight_eq_div_pow]

theorem reservedHigh_toNat (w : Word) : (w.extractLsb' 11 21).toNat = w.toNat / 2048 := by
  have := w.isLt
  simp only [BitVec.extractLsb'_toNat, Nat.shiftRight_eq_div_pow]
  omega

theorem toNat_getLsbD (w : Word) (k : Nat) : (w.getLsbD k).toNat = w.toNat / 2 ^ k % 2 := by
  simp [BitVec.getLsbD, Nat.toNat_testBit]

/-- No bit stands outside the fields. -/
theorem toNat_eq_fields (w : Word) :
    w.toNat = (opField w).toNat + 32 * (w.extractLsb' 5 3).toNat + 256 * (w.getLsbD 8).toNat +
      512 * (w.getLsbD 9).toNat + 1024 * (w.getLsbD 10).toNat + 2048 * (w.extractLsb' 11 21).toNat := by
  rw [opField_toNat, reservedLow_toNat, reservedHigh_toNat, toNat_getLsbD, toNat_getLsbD, toNat_getLsbD]
  omega

theorem reservedClear_iff (w : Word) : reservedClear w = true ↔ w.extractLsb' 5 3 = 0 ∧ w.extractLsb' 11 21 = 0 := by
  simp [reservedClear]

theorem reservedClear_iff_toNat (w : Word) :
    reservedClear w = true ↔ (w.extractLsb' 5 3).toNat = 0 ∧ (w.extractLsb' 11 21).toNat = 0 := by
  rw [reservedClear_iff, ← BitVec.toNat_inj, ← BitVec.toNat_inj]
  rfl

/-! ### The encoder, field by field (30_encoding.md R74) -/

/-- A one-bit field ORed in above a word is added to it. -/
theorem toNat_or_bitWord {w : Word} {k : Nat} (hk : k < 32) (hw : w.toNat < 2 ^ k) (b : Bool) :
    (w ||| bitWord b <<< k).toNat = w.toNat + 2 ^ k * b.toNat := by
  have hbit : (bitWord b <<< k).toNat = 2 ^ k * b.toNat := by
    cases b with
    | false => simp [bitWord]
    | true => simpa [bitWord, Nat.shiftLeft_eq] using Nat.pow_lt_pow_right Nat.one_lt_two hk
  rw [BitVec.toNat_or, hbit, Nat.or_comm, ← Nat.two_pow_add_eq_or_of_lt hw, Nat.add_comm]

/-- The formula of R74 as a sum: the fields do not overlap. -/
theorem encode_toNat (i : Instr) :
    (encode i).toNat = i.opcode.toNat + 256 * i.msel.toNat + 512 * i.vsel.toNat + 1024 * i.ssel.toNat := by
  have hop := i.opcode.isLt
  have hm := i.msel.toNat_le
  have hv := i.vsel.toNat_le
  have h0 : (i.opcode.setWidth 32).toNat = i.opcode.toNat := by simp; omega
  have h1 := toNat_or_bitWord (w := i.opcode.setWidth 32) (k := 8) (by decide) (by omega) i.msel
  have h2 := toNat_or_bitWord (k := 9) (by decide) (by rw [h1]; omega) i.vsel
  have h3 := toNat_or_bitWord (k := 10) (by decide) (by rw [h2]; omega) i.ssel
  rw [encode, h3, h2, h1, h0]
  norm_num

theorem encode_msel (i : Instr) : (encode i).getLsbD 8 = i.msel := by simp [encode, bitWord]

theorem encode_vsel (i : Instr) : (encode i).getLsbD 9 = i.vsel := by simp [encode, bitWord]

theorem encode_ssel (i : Instr) : (encode i).getLsbD 10 = i.ssel := by simp [encode, bitWord]

theorem opField_encode (i : Instr) : opField (encode i) = i.opcode := by
  have hop := i.opcode.isLt
  refine BitVec.eq_of_toNat_eq ?_
  rw [opField_toNat, encode_toNat]
  omega

/-- The four fields fill the word of a command up, so its reserved fields are left 0. -/
theorem reservedClear_encode (i : Instr) : reservedClear (encode i) = true := by
  have hfields := toNat_eq_fields (encode i)
  rw [encode_msel, encode_vsel, encode_ssel, opField_encode, encode_toNat] at hfields
  rw [reservedClear_iff_toNat]
  omega

/-- The word has the command's opcode and select bits, and its reserved fields are 0 (30_encoding.md R61, R66). -/
def HasFieldsOf (w : Word) (i : Instr) : Prop :=
  reservedClear w = true ∧ opField w = i.opcode ∧ w.getLsbD 8 = i.msel ∧ w.getLsbD 9 = i.vsel ∧ w.getLsbD 10 = i.ssel

theorem encode_hasFieldsOf (i : Instr) : HasFieldsOf (encode i) i :=
  ⟨reservedClear_encode i, opField_encode i, encode_msel i, encode_vsel i, encode_ssel i⟩

/-- A word is a command's exactly when its fields are the command's. -/
theorem eq_encode_iff (w : Word) (i : Instr) : w = encode i ↔ HasFieldsOf w i := by
  constructor
  · rintro rfl
    exact encode_hasFieldsOf i
  · rintro ⟨hclear, hop, hm, hv, hs⟩
    obtain ⟨hlow, hhigh⟩ := (reservedClear_iff_toNat w).mp hclear
    refine BitVec.eq_of_toNat_eq ?_
    rw [toNat_eq_fields w, hop, hlow, hm, hv, hs, hhigh, encode_toNat]
    rfl

/-! ### The decoder (30_encoding.md R70, R71) -/

theorem instrOfOp_eq_some_iff (op : Nat) (m v s : Bool) (i : Instr) :
    instrOfOp op m v s = some i ↔ op = i.opcode.toNat ∧ m = i.msel ∧ v = i.vsel ∧ s = i.ssel := by
  constructor
  · intro h
    unfold instrOfOp at h
    split at h <;> cases h <;> exact ⟨rfl, rfl, rfl, rfl⟩
  · rintro ⟨rfl, rfl, rfl, rfl⟩
    cases i <;> rfl

theorem instrOfOp_eq_none_iff (op : Nat) (m v s : Bool) : instrOfOp op m v s = none ↔ op = 0 ∨ 9 < op := by
  unfold instrOfOp
  split
  case h_10 =>
    simp only [imp_false] at *
    simp only [true_iff]
    omega
  all_goals simp

theorem decode_eq_some_iff (w : Word) (i : Instr) : decode w = some i ↔ HasFieldsOf w i := by
  rw [decode, HasFieldsOf, Option.ite_none_right_eq_some, instrOfOp_eq_some_iff, BitVec.toNat_inj]

theorem decode_eq_none_iff (w : Word) :
    decode w = none ↔ reservedClear w = true → (opField w).toNat = 0 ∨ 9 < (opField w).toNat := by
  rw [decode, ite_eq_right_iff, instrOfOp_eq_none_iff]

/-- Settles O1: a word decodes to a command, and is the command's, exactly when its fields are the command's. -/
theorem decodeInvertsEncode : Obligations.DecodeInvertsEncode := fun w i =>
  (decode_eq_some_iff w i).trans (eq_encode_iff w i).symm

theorem decode_encode (i : Instr) : decode (encode i) = some i := (decodeInvertsEncode _ i).mpr rfl

/-- Settles O2: the decoder's two tests are the clauses of R70. -/
theorem decodeRejectsExactlyIllegalWords : Obligations.DecodeRejectsExactlyIllegalWords := by
  intro w
  rw [decode_eq_none_iff, reservedClear_iff]
  unfold IllegalWord opField
  tauto

/-- Settles O4, by evaluating the decoder on the twelve words. -/
theorem writtenWordsDecode : Obligations.WrittenWordsDecode := by
  unfold Obligations.WrittenWordsDecode
  decide

/-! ### The match/mask form (30_encoding.md R71) -/

theorem encode_and_mask (i : Instr) : encode i &&& 0xFFFFF8FF = i.opcode.setWidth 32 := by
  cases i with
  | norm m v s => exact Laws.MatchMask.norm m v s
  | modinv m v s => exact Laws.MatchMask.modinv m v s
  | mvmul m v s => exact Laws.MatchMask.mvmul m v s
  | mvmulm m v s => exact Laws.MatchMask.mvmulm m v s
  | det m v s => exact Laws.MatchMask.det m v s
  | detm m v s => exact Laws.MatchMask.detm m v s
  | adj m v s => exact Laws.MatchMask.adj m v s
  | smulm m v s => exact Laws.MatchMask.smulm m v s
  | minv m v s => exact Laws.MatchMask.minv m v s

theorem opcode_range (i : Instr) : 1 ≤ i.opcode.toNat ∧ i.opcode.toNat ≤ 9 := by cases i <;> simp [Instr.opcode]

/-- The mask keeps OP and the reserved fields and clears the select bits. -/
theorem toNat_and_mask (w : Word) : (w &&& 0xFFFFF8FF).toNat =
    (opField w).toNat + 32 * (w.extractLsb' 5 3).toNat + 2048 * (w.extractLsb' 11 21).toNat := by
  have hop : opField (w &&& 0xFFFFF8FF) = opField w := BitVec.extractLsb'_and.trans BitVec.and_allOnes
  have hlow : (w &&& 0xFFFFF8FF).extractLsb' 5 3 = w.extractLsb' 5 3 := BitVec.extractLsb'_and.trans BitVec.and_allOnes
  have hhigh : (w &&& 0xFFFFF8FF).extractLsb' 11 21 = w.extractLsb' 11 21 :=
    BitVec.extractLsb'_and.trans BitVec.and_allOnes
  rw [toNat_eq_fields, hop, hlow, hhigh]
  simp

/-- Settles O3: the masked word of a command is its opcode, and an illegal word has either its OP outside 1..9 or a
reserved bit, which alone makes the masked word exceed 9. -/
theorem decodeMatchesMask : Obligations.DecodeMatchesMask := by
  intro w
  cases hw : decode w with
  | some i =>
    obtain rfl := (decodeInvertsEncode w i).mp hw
    have hmask : (encode i &&& 0xFFFFF8FF).toNat = i.opcode.toNat := by
      rw [encode_and_mask, BitVec.toNat_setWidth]
      exact Nat.mod_eq_of_lt (by have := i.opcode.isLt; omega)
    rw [hmask, if_pos (opcode_range i)]
    rfl
  | none =>
    have hmask := toNat_and_mask w
    rw [decode_eq_none_iff, reservedClear_iff_toNat] at hw
    rw [if_neg (by omega)]
    rfl

end Sys2Proof
end

section
/-! ### The assembler: values, texts and pseudo-instructions (30_encoding.md R74 to R76) -/

namespace Sys2Proof

/-- A command is well formed when each select bit it sets is one it reads. -/
theorem Instr.wf_iff (i : Instr) :
    i.wf = true ↔
      ((i.msel = true → i.readsM = true) ∧ (i.vsel = true → i.readsV = true) ∧ (i.ssel = true → i.readsS = true)) := by
  unfold Instr.wf
  simp [and_assoc, or_iff_not_imp_right]

end Sys2Proof

namespace Sys2Proof.Machine

/-- Settles O6: both extensions are the value mod 2^32, read back as signed below 0 and as unsigned from 0 on. -/
theorem assembledValueIsItsWord : Obligations.AssembledValueIsItsWord := by
  intro v
  refine ⟨fun hlo hneg => ?negative, fun hpos hhi => ?nonnegative, fun hout => if_neg (by omega)⟩
  case negative =>
    refine ⟨_, if_pos ⟨hlo, by omega⟩, ?_⟩
    rw [BitVec.toInt_ofInt]
    exact Int.bmod_eq_of_le (by omega) (by omega)
  case nonnegative => exact ⟨_, if_pos ⟨by omega, hhi⟩, zext32_toNat v hpos hhi⟩

/-- Settles O7: each expansion is the table's, and RUN's write is not refused because its command is well formed. -/
theorem pseudoInstructionsExpand : Obligations.PseudoInstructionsExpand := by
  refine ⟨rfl, rfl, rfl, rfl, rfl, rfl, fun k => rfl, fun i k hwf => ?_⟩
  simp [lineOps, cmdOps, waitOps, hwf, Reg.offset]

/-! ### Assembly texts (30_encoding.md R74) -/

theorem asmText_isSome (i : Instr) : (asmText i).isSome = i.wf := by
  unfold asmText
  cases i.wf <;> rfl

theorem mem_allInstrs (i : Instr) : i ∈ allInstrs := by
  cases i with
  | _ m v s => cases m <;> cases v <;> cases s <;> decide

/-- No two well-formed commands have one text, so the assembler's search for a text ends at its command. -/
theorem find_asmText : ∀ i ∈ allInstrs, i.wf = true →
    (allInstrs.find? fun j => asmText j == asmText i) = some i := by
  decide

theorem assemble_of_asmText {i : Instr} {text : String} (h : asmText i = some text) :
    assemble text = some (encode i) := by
  have hwf : i.wf = true := by rw [← asmText_isSome, h]; rfl
  have hfind := find_asmText i (mem_allInstrs i) hwf
  rw [h] at hfind
  rw [assemble, hfind]
  rfl

/-- Settles O5, clause by clause. -/
theorem assembledWordIsTheFormula : Obligations.AssembledWordIsTheFormula := fun i =>
  ⟨encode_toNat i, by rw [asmText_isSome, Instr.wf_iff], fun _ => assemble_of_asmText⟩

end Sys2Proof.Machine
end

section
/-! ### What a completion leaves alone (30_encoding.md R68, 10_state.md R35) -/

namespace Sys2Proof

open Machine

/-- The registers a success of the command writes: the writes column of R68. -/
def Instr.writes : Instr → List Reg
  | .norm _ _ _ => [.rS]
  | .modinv _ _ _ => [.rS]
  | .mvmul _ _ _ => [.rW0w0, .rW0w1, .rW0w2, .rW1w0, .rW1w1, .rW1w2]
  | .mvmulm _ _ _ => [.rW0w0, .rW0w1, .rW0w2, .rW1w0, .rW1w1, .rW1w2, .rV0, .rV1]
  | .det _ _ _ => [.rDetw0, .rDetw1, .rDetw2]
  | .detm _ _ _ => [.rDetw0, .rDetw1, .rDetw2, .rS]
  | .adj _ _ _ => [.rM00, .rM01, .rM10, .rM11]
  | .smulm _ _ _ => [.rM00, .rM01, .rM10, .rM11]
  | .minv _ _ _ => [.rDetw0, .rDetw1, .rDetw2, .rS, .rM00, .rM01, .rM10, .rM11]

end Sys2Proof

namespace Sys2Proof.Machine

/-- The registers of the map that show the values w writes. -/
def Writes.regs (w : Writes) : List Reg :=
  List.flatten
    [if w.rW.isSome then [.rW0w0, .rW0w1, .rW0w2, .rW1w0, .rW1w1, .rW1w2] else [],
     if w.rDet.isSome then [.rDetw0, .rDetw1, .rDetw2] else [],
     if w.rS.isSome then [.rS] else [],
     if w.rM.isSome then [.rM00, .rM01, .rM10, .rM11] else [],
     if w.rV.isSome then [.rV0, .rV1] else []]

/-- A register that w does not list is read from what w leaves: its own entry of w is none. -/
theorem readReg_succeed {w : Writes} {r : Reg} (hst : r ≠ .status) (hr : r ∉ w.regs) (s : State) :
    readReg (succeed w s) r = readReg s r := by
  cases r with
  | status => exact absurd rfl hst
  | id | cmd | ctrl | mod | a | m00 | m01 | m10 | m11 | v0 | v1 => rfl
  | _ =>
    simp only [Writes.regs] at hr
    simp_all [readReg]

theorem readReg_raiseError {r : Reg} (hst : r ≠ .status) (e : CmdError) (s : State) :
    readReg (raiseError e s) r = readReg s r := by
  cases r with
  | status => exact absurd rfl hst
  | _ => rfl

theorem eq_ok_of_withModulus {l : Latch} {o : CmdOutcome} {w : Writes} (h : withModulus l o = .ok w) : o = .ok w := by
  by_cases hn : l.n < 2
  · rw [withModulus_of_lt l o hn] at h
    cases h
  · rwa [withModulus_of_le l o (by omega)] at h

/-- A success writes the registers of its command's row. -/
theorem regs_of_outcomeOf {i : Instr} {l : Latch} {w : Writes} (h : outcomeOf i l = .ok w) : w.regs = i.writes := by
  cases i with
  | norm | mvmulm | detm | adj | smulm =>
    cases eq_ok_of_withModulus h
    rfl
  | mvmul | det =>
    cases h
    rfl
  | modinv | minv =>
    replace h := eq_ok_of_withModulus h
    simp only [opModinv, opMinv] at h
    split at h <;> cases h
    rfl

/-- Whatever its outcome, a completion keeps every register but STATUS that its command's row does not name. -/
theorem readReg_exec (i : Instr) {s t : State} {r : Reg} (hst : r ≠ .status) (h : exec i s = .next t)
    (hr : r ∉ i.writes) : readReg t r = readReg s r := by
  rw [exec_eq_complete] at h
  cases h
  obtain ⟨w, ho, hc⟩ | ⟨e, -, hc⟩ := complete_cases (outcomeOf i s.latch) s <;> rw [hc]
  · exact readReg_succeed hst (regs_of_outcomeOf ho ▸ hr) s
  · exact readReg_raiseError hst e s

/-- Settles O28: the rows of the four commands. -/
theorem scalarAndVectorCommandsKeepOtherRegisters : Obligations.ScalarAndVectorCommandsKeepOtherRegisters := by
  intro m v x s t r hst
  refine ⟨fun h hr => readReg_exec (.norm m v x) hst h ?_, fun h hr => readReg_exec (.modinv m v x) hst h ?_,
    readReg_exec (.mvmul m v x) hst, readReg_exec (.mvmulm m v x) hst⟩ <;> simpa [Instr.writes] using hr

/-- Settles O29: the rows of the five commands. -/
theorem determinantAndMatrixCommandsKeepOtherRegisters : Obligations.DeterminantAndMatrixCommandsKeepOtherRegisters :=
  fun m v x _ _ _ hst =>
    ⟨readReg_exec (.det m v x) hst, readReg_exec (.detm m v x) hst, readReg_exec (.adj m v x) hst,
      readReg_exec (.smulm m v x) hst, readReg_exec (.minv m v x) hst⟩

end Sys2Proof.Machine
end

section
/-! ### The select bits: chained operands and ignored bits (30_encoding.md R67, R69) -/

namespace Sys2Proof.Machine

/-- Settles O46: a residue word is below 2^31, so its signed value is its unsigned one. -/
theorem chainedOperandIsTheResidue : Obligations.ChainedOperandIsTheResidue := by
  intro s d hs
  refine ⟨fun hd => ?scalar, fun hd => ?vector, fun hd => ?matrix⟩ <;>
    simp only [launch_latch, snapshot, selectScalar, selectVector, selectMatrix, hd, if_true, Vec2.map, Mat.map]
  case scalar => exact sint32_of_small _ hs.rS_residue
  case vector => exact ⟨sint32_of_small _ hs.rV0_residue, sint32_of_small _ hs.rV1_residue⟩
  case matrix =>
    exact ⟨sint32_of_small _ hs.rM00_residue, sint32_of_small _ hs.rM01_residue, sint32_of_small _ hs.rM10_residue,
      sint32_of_small _ hs.rM11_residue⟩

/-- A command's word launched latches the operands the command's select bits name. -/
theorem snapshot_encode (i : Instr) (s : State) :
    snapshot (encode i) s =
      { cmd := encode i, n := sint32 s.operands.mod, s := selectScalar i.ssel s, m := selectMatrix i.msel s,
        v := selectVector i.vsel s } := by
  rw [snapshot, encode_msel, encode_vsel, encode_ssel]

/-- The completion of a launched command ends with the command's outcome. -/
theorem completion_launch_encode (i : Instr) (s : State) :
    completion (launch (encode i) s) =
      .next (complete (outcomeOf i (snapshot (encode i) s)) (launch (encode i) s)) := by
  rw [completion_eq, launch_latch, latchOutcome]
  simp only [snapshot_encode, decode_encode]

/-- A command is found again by its opcode. -/
theorem exists_instrOfOp_opcode (i : Instr) : ∃ m v s, instrOfOp i.opcode.toNat m v s = some i :=
  ⟨_, _, _, (instrOfOp_eq_some_iff _ _ _ _ _).mpr ⟨rfl, rfl, rfl, rfl⟩⟩

/-- The outcome depends on the opcode, on N and on the operands the command reads. -/
theorem outcomeOf_congr {i j : Instr} {l l' : Latch} (hop : i.opcode = j.opcode) (hn : l.n = l'.n)
    (hm : i.readsM = true → l.m = l'.m) (hv : i.readsV = true → l.v = l'.v) (hs : i.readsS = true → l.s = l'.s) :
    outcomeOf i l = outcomeOf j l' := by
  obtain ⟨_, _, _, hj⟩ := exists_instrOfOp_opcode j
  rw [← hop] at hj
  cases i with
  | norm | modinv =>
    cases hj
    simp only [outcomeOf, withModulus, opNorm, opModinv, hn, hs rfl]
  | mvmul | mvmulm =>
    cases hj
    simp only [outcomeOf, withModulus, opMvmul, opMvmulm, hn, hm rfl, hv rfl]
  | det | detm | adj | minv =>
    cases hj
    simp only [outcomeOf, withModulus, opDet, opDetm, opAdj, opMinv, hn, hm rfl]
  | smulm =>
    cases hj
    simp only [outcomeOf, withModulus, opSmulm, hn, hm rfl, hs rfl]

theorem withModulus_ne_illegalCmd {l : Latch} {o : CmdOutcome} (h : o ≠ .err .illegalCmd) :
    withModulus l o ≠ .err .illegalCmd := by
  unfold withModulus
  split
  · nofun
  · exact h

/-- A decoded command does not end with ILLEGAL_CMD. -/
theorem outcomeOf_ne_illegalCmd (i : Instr) (l : Latch) : outcomeOf i l ≠ .err .illegalCmd := by
  cases i with
  | norm | mvmulm | detm | adj | smulm => exact withModulus_ne_illegalCmd nofun
  | mvmul | det => nofun
  | modinv | minv =>
    refine withModulus_ne_illegalCmd ?_
    simp only [opModinv, opMinv]
    split <;> nofun

theorem complete_errcode_ne_illegalCmd {o : CmdOutcome} (h : o ≠ .err .illegalCmd) (s : State) :
    (complete o s).status.errcode ≠ 3 := by
  cases o with
  | ok w => simp [complete, Status.succeeded]
  | err e =>
    cases e with
    | illegalCmd => exact absurd rfl h
    | noInverse | badModulus => simp [complete, Status.failed, CmdError.code]

/-- What a completion shows and writes depends on the outcome and on the STATUS and the results before it. -/
theorem complete_congr (o : CmdOutcome) {s s' : State} (hst : s.status = s'.status) (hres : s.results = s'.results) :
    (complete o s).results = (complete o s').results ∧ (complete o s).status = (complete o s').status := by
  cases o <;> simp [complete, hst, hres]

/-- Settles O58: the two words latch alike the operands the command reads, and LASTOP is the opcode of both. -/
theorem ignoredSelectBitsChangeNothing : Obligations.IgnoredSelectBitsChangeNothing := by
  intro s i j hop hm hv hs
  have houtcome : outcomeOf i (snapshot (encode i) s) = outcomeOf j (snapshot (encode j) s) := by
    rw [snapshot_encode, snapshot_encode]
    exact outcomeOf_congr hop rfl (fun h => by rw [hm h]) (fun h => by rw [hv h]) fun h => by rw [hs h]
  have hlastop : opField (encode i) = opField (encode j) := by rw [opField_encode, opField_encode, hop]
  have hstatus : (launch (encode i) s).status = (launch (encode j) s).status :=
    congrArg (fun lastop => { s.status.launched (encode i) with lastop }) hlastop
  obtain ⟨hres, hst⟩ := complete_congr (outcomeOf i (snapshot (encode i) s)) hstatus rfl
  refine ⟨_, _, completion_launch_encode i s, completion_launch_encode j s, ?_⟩
  rw [← houtcome]
  exact ⟨hres, hst, complete_errcode_ne_illegalCmd (outcomeOf_ne_illegalCmd i _) _, by simp, by simp⟩

end Sys2Proof.Machine
end

section
/-! ### The command cycle: launch and overrun at CMD, CORE's turn, what a completion ends with (40_command_cycle.md R77 to R94) -/

namespace Sys2Proof.Machine

/-! ### A write to CMD (40_command_cycle.md R78, R84) -/

theorem writeReg_cmd_idle (d : Word) {s : State} (hb : s.status.busy = false) : writeReg .cmd d s = launch d s :=
  if_neg (Bool.eq_false_iff.mp hb)

theorem writeReg_cmd_busy (d : Word) {s : State} (hb : s.status.busy = true) : writeReg .cmd d s = overrun s :=
  if_pos hb

/-- Settles O30: the write launches, and the snapshot's selections are taken apart at their select bits. -/
theorem cmdWriteLaunches : Obligations.CmdWriteLaunches := by
  intro s d rest hr hb hturns
  refine ⟨{ launch d (s.begin rest) with response := some .okWrite }, ?step, rfl, rfl, rfl, rfl, rfl, rfl, hr,
    irq_of_not_done rfl, rfl, rfl, ?scalar, ?m00, ?m01, ?m10, ?m11, ?v0, ?v1⟩
  case step => rw [step_write s .cmd d rest hr hturns, writeReg_cmd_idle d (s := s.begin rest) hb]
  case scalar => exact apply_ite sint32 ..
  case m00 => exact apply_ite (fun m : Mat Word => sint32 m.m00) ..
  case m01 => exact apply_ite (fun m : Mat Word => sint32 m.m01) ..
  case m10 => exact apply_ite (fun m : Mat Word => sint32 m.m10) ..
  case m11 => exact apply_ite (fun m : Mat Word => sint32 m.m11) ..
  case v0 => exact apply_ite (fun v : Vec2 Word => sint32 v.v0) ..
  case v1 => exact apply_ite (fun v : Vec2 Word => sint32 v.v1) ..

/-- Settles O31: the write is an overrun. -/
theorem cmdWriteWhileBusyIsOverrun : Obligations.CmdWriteWhileBusyIsOverrun := by
  intro s d rest hr hb hturns
  rw [step_write s .cmd d rest hr hturns, writeReg_cmd_busy d (s := s.begin rest) hb]
  rfl

/-! ### CORE's turn (40_command_cycle.md R81) -/

/-- With a command running CORE's turn is `exec` of the latched word's command. -/
theorem takeTurn_core_exec {s : State} {i : Instr} (hr : s.rstIn = false) (hb : s.status.busy = true)
    (hi : decode s.latch.cmd = some i) : takeTurn .core s = exec i s := by
  simp [takeTurn, coreTurn, completion, hr, hb, hi]

theorem takeTurn_core_idle {s : State} (hr : s.rstIn = false) (hb : s.status.busy = false) :
    takeTurn .core s = .next s := by
  simp [takeTurn, coreTurn, hr, hb]

/-- With no turn left there is none to take off. -/
theorem begin_nil {s : State} (h : s.turns = []) : s.begin [] = { s with response := none } := by
  rw [State.begin, ← h]

/-- Settles O8: CORE's turn, from the list or at its end. -/
theorem stepRunsDecodedCommand : Obligations.StepRunsDecodedCommand := by
  intro s i hr hb hi
  refine ⟨fun rest hturns => ?onList, fun hturns => ?atEnd⟩
  case onList => rw [step_cons s .core rest hturns, takeTurn_core_exec (s := s.begin rest) hr hb hi, State.begin]
  case atEnd => rw [step_nil s hturns, takeTurn_core_exec (s := s.begin []) hr hb hi, begin_nil hturns]

/-- Settles O9: CORE's turn passes. -/
theorem coreHasNoStepWhenIdle : Obligations.CoreHasNoStepWhenIdle := by
  intro s rest hr hb hturns
  rw [step_cons s .core rest hturns, takeTurn_core_idle (s := s.begin rest) hr hb, State.begin]

theorem takeTurn_answers (u : Turn) (s : State) : ∃ t, takeTurn u s = .next t := by
  cases u with
  | host a => exact ⟨_, rfl⟩
  | core =>
    cases hr : s.rstIn with
    | true => exact ⟨resetRegs s, by simp [takeTurn, hr]⟩
    | false =>
      cases hb : s.status.busy with
      | true => exact ⟨_, takeTurn_core_busy s hr hb⟩
      | false => exact ⟨_, takeTurn_core_idle hr hb⟩
  | resetOn => exact ⟨_, rfl⟩
  | resetOff => exact ⟨_, rfl⟩

/-- Settles O10: a step is a turn, and every turn answers. -/
theorem everyStepAnswersNext : Obligations.EveryStepAnswersNext := by
  intro s
  cases h : s.turns with
  | nil => simpa only [step_nil s h] using takeTurn_answers .core (s.begin [])
  | cons u rest => simpa only [step_cons s u rest h] using takeTurn_answers u (s.begin rest)

/-! ### The end of a command (40_command_cycle.md R82 to R88) -/

theorem complete_frame (o : CmdOutcome) (s : State) : CommandFrame s (complete o s) :=
  ⟨complete_operands o s, complete_ie o s, complete_latch o s, complete_rstIn o s, complete_response o s,
    complete_turns o s⟩

/-- Every completion is `complete` of LATCH's outcome. -/
theorem eq_complete_of_completion {s t : State} (h : completion s = .next t) :
    t = complete (latchOutcome s.latch) s := by
  rw [completion_eq] at h
  cases h
  rfl

theorem complete_err_iff (o : CmdOutcome) (s : State) :
    (complete o s).status.err = true ↔ (complete o s).status.errcode ≠ 0 := by
  rw [← Bool.not_eq_false, (complete_status_legal o s).err_iff]

theorem succeeded_complete_ok (w : Writes) (s : State) : Succeeded s (complete (.ok w) s) := rfl

/-- A completion that shows an error is no success, so it wrote no result. -/
theorem complete_results_of_err {o : CmdOutcome} {s : State} (h : (complete o s).status.err = true) :
    (complete o s).results = s.results := by
  obtain ⟨w, -, ho⟩ | ⟨e, -, ho⟩ := complete_cases o s <;> rw [ho] at h ⊢
  · cases h
  · rfl

/-- Settles O25: the frame holds of every completion, and a failing one writes no result. -/
theorem failedCommandWritesNoResult : Obligations.FailedCommandWritesNoResult := by
  intro s t h herr
  obtain rfl := eq_complete_of_completion h
  exact ⟨complete_results_of_err herr, complete_frame _ s⟩

/-- Settles O27: the flags of `complete`, whatever the outcome. -/
theorem completionEndsTheCommand : Obligations.CompletionEndsTheCommand := fun s =>
  ⟨_, completion_eq s, complete_frame _ s, complete_busy _ s, complete_done _ s, complete_ovr _ s, complete_lastop _ s,
    complete_err_iff _ s, (complete_status_legal _ s).errcode_le⟩

/-- Settles O23: the outcome of MVMUL and of DET is a success on every latch. -/
theorem mvmulAndDetNeverFail : Obligations.MvmulAndDetNeverFail := fun _ _ _ _ =>
  ⟨⟨_, exec_eq_complete _ _, succeeded_complete_ok _ _⟩, ⟨_, exec_eq_complete _ _, succeeded_complete_ok _ _⟩⟩

/-- A register that w lists shows the value written, from whatever state. -/
theorem readReg_succeed_of_mem {w : Writes} {r : Reg} (hr : r ∈ w.regs) (s s' : State) :
    readReg (succeed w s) r = readReg (succeed w s') r := by
  simp only [Writes.regs] at hr
  cases r with
  | rS =>
    obtain ⟨x, hx⟩ := Option.isSome_iff_exists.mp (show w.rS.isSome = true by simpa using hr)
    simp [readReg, hx]
  | rM00 | rM01 | rM10 | rM11 =>
    obtain ⟨x, hx⟩ := Option.isSome_iff_exists.mp (show w.rM.isSome = true by simpa using hr)
    simp [readReg, hx]
  | rV0 | rV1 =>
    obtain ⟨x, hx⟩ := Option.isSome_iff_exists.mp (show w.rV.isSome = true by simpa using hr)
    simp [readReg, hx]
  | rW0w0 | rW0w1 | rW0w2 | rW1w0 | rW1w1 | rW1w2 =>
    obtain ⟨x, hx⟩ := Option.isSome_iff_exists.mp (show w.rW.isSome = true by simpa using hr)
    simp [readReg, hx]
  | rDetw0 | rDetw1 | rDetw2 =>
    obtain ⟨x, hx⟩ := Option.isSome_iff_exists.mp (show w.rDet.isSome = true by simpa using hr)
    simp [readReg, hx]
  | _ => simp at hr

/-- One outcome writes a register alike in two states, or leaves it in both. -/
theorem readReg_complete (o : CmdOutcome) (s s' : State) {r : Reg} (hst : r ≠ .status) :
    readReg (complete o s) r = readReg (complete o s') r ∨
      (readReg (complete o s) r = readReg s r ∧ readReg (complete o s') r = readReg s' r) := by
  cases o with
  | ok w =>
    by_cases hr : r ∈ w.regs
    · exact .inl (readReg_succeed_of_mem hr s s')
    · exact .inr ⟨readReg_succeed hst hr s, readReg_succeed hst hr s'⟩
  | err e => exact .inr ⟨readReg_raiseError hst e s, readReg_raiseError hst e s'⟩

/-- ERR and ERRCODE come from the outcome alone. -/
theorem complete_error_congr (o : CmdOutcome) (s s' : State) :
    (complete o s).status.err = (complete o s').status.err ∧
      (complete o s).status.errcode = (complete o s').status.errcode := by
  cases o <;> exact ⟨rfl, rfl⟩

/-- Settles O26: both completions have the outcome of the one LATCH. -/
theorem outcomeDependsOnLatchAlone : Obligations.OutcomeDependsOnLatchAlone := by
  intro s s' t t' hlatch h h'
  obtain rfl := eq_complete_of_completion h
  obtain rfl := eq_complete_of_completion h'
  rw [← hlatch]
  obtain ⟨herr, hcode⟩ := complete_error_congr (latchOutcome s.latch) s s'
  exact ⟨herr, hcode, fun r hst => readReg_complete _ s s' hst⟩

end Sys2Proof.Machine
end

section
/-! ### The end of a run (40_command_cycle.md R91, R92) -/

namespace Sys2Proof.Machine

/-- A step takes the first turn off the list and puts none on. -/
theorem turns_of_step {s t : State} (h : step s = .next t) : t.turns = s.turns.tail := by
  obtain ⟨u, rest, b, hu, rfl, heffect⟩ := step_effect s t h
  have htail : s.turns.tail = rest := by
    obtain hcons | ⟨hnil, -, rfl⟩ := hu
    · rw [hcons, List.tail_cons]
    · rw [hnil, List.tail_nil]
  rw [htail]
  obtain ⟨-, -, rfl⟩ | ⟨-, rfl⟩ | ⟨-, rfl⟩ | ⟨-, -, rfl⟩ | ⟨-, -, -, rfl⟩ | ⟨-, -, -, -, rfl⟩ | ⟨-, -, -, -, rfl⟩ |
    ⟨-, -, -, rfl⟩ | ⟨-, -, -, -, rfl⟩ | ⟨-, -, -, -, rfl⟩ | ⟨-, -, -, -, -, -, -, rfl⟩ := heffect <;>
    simp

/-- After CORE's turn no command runs: it was completed, or reset abandoned it, or there was none. -/
theorem not_busy_of_takeTurn_core {s t : State} (h : takeTurn .core s = .next t) : t.status.busy = false := by
  obtain ⟨_, hu, -⟩ | ⟨_, hu, -⟩ | ⟨-, -, -, rfl⟩ | ⟨-, -, hb, rfl⟩ | ⟨-, -, rfl⟩ | ⟨hu, -⟩ | ⟨hu, -⟩ :=
    takeTurn_cases .core s t h
  · cases hu
  · cases hu
  · exact complete_busy _ s
  · exact hb
  · rfl
  · cases hu
  · cases hu

theorem ended_of_step_nil {s t : State} (hturns : s.turns = []) (h : step s = .next t) : t.turns = [] ∧ t.Ended := by
  have hnil : t.turns = [] := by rw [turns_of_step h, hturns, List.tail_nil]
  rw [step_nil s hturns] at h
  exact ⟨hnil, accessesLeft_nil t hnil, not_busy_of_takeTurn_core h⟩

/-- Settles O54, by induction on the list of turns: each step takes one turn off, and the one after the last is CORE's. -/
theorem everyRunEnds : Obligations.EveryRunEnds := by
  intro s
  obtain ⟨t, ht⟩ := everyStepAnswersNext s
  induction hturns : s.turns generalizing s t with
  | nil => exact ⟨t, run_succ 0 s t ht, ended_of_step_nil hturns ht⟩
  | cons u rest ih =>
    obtain ⟨t', ht'⟩ := everyStepAnswersNext t
    obtain ⟨final, hrun, hfinal⟩ := ih t t' ht' (by rw [turns_of_step ht, hturns, List.tail_cons])
    exact ⟨final, (run_succ _ s t ht).trans hrun, hfinal⟩

/-- Where the host has no access left, no turn is the host's. -/
theorem turns_ne_host {s : State} (h : s.accessesLeft = []) (a : Access) (rest : List Turn) :
    s.turns ≠ .host a :: rest := by
  intro hturns
  rw [accessesLeft_cons s _ rest hturns] at h
  cases h

/-- A step adds no access of the host. -/
theorem accessesLeft_of_step {s t : State} (h : step s = .next t) (hs : s.accessesLeft = []) : t.accessesLeft = [] := by
  cases hturns : s.turns with
  | nil => exact accessesLeft_nil t (by rw [turns_of_step h, hturns, List.tail_nil])
  | cons u rest =>
    rw [accessesLeft_cons s u rest hturns] at hs
    rw [State.accessesLeft, turns_of_step h, hturns, List.tail_cons]
    exact (List.append_eq_nil_iff.mp hs).2

/-- BUSY rises only with a host write, and the host has no access left. -/
theorem State.Ended.of_step {s t : State} (hs : s.Ended) (h : step s = .next t) : t.Ended := by
  obtain ⟨haccess, hb⟩ := hs
  refine ⟨accessesLeft_of_step h haccess, Bool.eq_false_iff.mpr fun hbusy => ?_⟩
  obtain ⟨-, d, rest, hturns⟩ := (busyMovesOnlyByLaunchCompletionReset s t h).1 hb hbusy
  exact turns_ne_host haccess _ rest hturns

/-- In a run that has ended only a turn of ENV moves anything: without reset a step takes its turn off and no more. -/
theorem State.Ended.eq_begin_of_step {s t : State} (hs : s.Ended) (h : step s = .next t) (hr : s.rstIn = false)
    (hon : ∀ rest, s.turns ≠ .resetOn :: rest) : ∃ rest, t = s.begin rest := by
  obtain ⟨haccess, hidle⟩ := hs
  obtain ⟨u, rest, hu, ht⟩ := step_cases s t h
  refine ⟨rest, ?_⟩
  obtain ⟨a, rfl, -⟩ | ⟨-, -, hr', -⟩ | ⟨-, -, hb, -⟩ | ⟨-, -, -, rfl⟩ | ⟨-, hr', -⟩ | ⟨rfl, -⟩ | ⟨-, rfl⟩ :=
    takeTurn_cases u (s.begin rest) t ht
  · exact absurd (turns_of_taken hu nofun) (turns_ne_host haccess a rest)
  · exact absurd (hr.symm.trans hr') nofun
  · exact absurd (hidle.symm.trans hb) nofun
  · rfl
  · exact absurd (hr.symm.trans hr') nofun
  · exact absurd (turns_of_taken hu nofun) (hon rest)
  · rw [State.begin, hr]

/-- Taking a turn off touches no register of the map. -/
@[simp] theorem readReg_begin (s : State) (rest : List Turn) (r : Reg) : readReg (s.begin rest) r = readReg s r := by
  cases r <;> rfl

/-- Settles O59: the step of an ended run adds no access and launches nothing, and without reset it touches no register. -/
theorem endedRunStaysEnded : Obligations.EndedRunStaysEnded := by
  intro s t h
  refine ⟨fun hs => ⟨hs.of_step h, fun hr hon r => ?_⟩, fun hb hs => absurd (hb.symm.trans hs.2) nofun⟩
  obtain ⟨rest, rfl⟩ := hs.eq_begin_of_step h hr hon
  exact readReg_begin s rest r

end Sys2Proof.Machine
end

section
/-! ### NORM, MODINV and the extended Euclidean algorithm (41_modular_arithmetic.md) -/

namespace Sys2Proof.Machine

/-! ### One iteration of the algorithm (41_modular_arithmetic.md R98) -/

theorem eeaLoop_of_one_lt {r : Int} (h : 1 < r) (k : Nat) (oldR oldS s : Int) :
    eeaLoop (k + 1) oldR r oldS s = eeaLoop k r (oldR % r) s (oldS - oldR / r * s) := by
  rw [eeaLoop, if_pos h, Int.emod_def, mul_comm r]

theorem eeaLoop_one (k : Nat) (oldR oldS s : Int) : eeaLoop (k + 1) oldR 1 oldS s = some s := by
  simp [eeaLoop]

theorem eeaLoop_of_lt_one {r : Int} (h : r < 1) (k : Nat) (oldR oldS s : Int) : eeaLoop k oldR r oldS s = none := by
  cases k with
  | zero => rfl
  | succ k => rw [eeaLoop, if_neg (by omega), if_neg (by omega)]

/-! ### The outcome of the algorithm (41_modular_arithmetic.md R99) -/

/-- Every iteration keeps `old_r ≡ old_s · a` and `r ≡ s · a (mod N)`, so the coefficient at r = 1 is an inverse of a. -/
theorem modEq_one_of_eeaLoop {a n x : Int} (k : Nat) (oldR r oldS s : Int) (hold : oldR ≡ oldS * a [ZMOD n])
    (hr : r ≡ s * a [ZMOD n]) (h : eeaLoop k oldR r oldS s = some x) : x * a ≡ 1 [ZMOD n] := by
  induction k generalizing oldR r oldS s with
  | zero => cases h
  | succ k ih =>
    obtain hlt | rfl | hgt := lt_trichotomy r 1
    · cases (eeaLoop_of_lt_one hlt ..).symm.trans h
    · cases (eeaLoop_one ..).symm.trans h
      exact hr.symm
    · rw [eeaLoop_of_one_lt hgt] at h
      refine ih _ _ _ _ hr ?_ h
      calc oldR % r = oldR - oldR / r * r := by rw [Int.emod_def, mul_comm r]
        _ ≡ oldS * a - oldR / r * (s * a) [ZMOD n] := hold.sub (hr.mul_left _)
        _ = (oldS - oldR / r * s) * a := by ring

/-- The remainders keep their gcd and shrink, so with gcd 1 and rounds enough the loop meets r = 1. -/
theorem eeaLoop_isSome (k : Nat) (oldR r oldS s : Int) (hold : 1 < oldR) (h0 : 0 ≤ r) (hk : r < k)
    (hgcd : Int.gcd oldR r = 1) : (eeaLoop k oldR r oldS s).isSome := by
  induction k generalizing oldR r oldS s with
  | zero => omega
  | succ k ih =>
    obtain hlt | rfl | hgt := lt_trichotomy r 1
    · obtain rfl : r = 0 := by omega
      rw [Int.gcd_zero_right] at hgcd
      omega
    · rw [eeaLoop_one, Option.isSome_some]
    · have hrem := Int.emod_lt_of_pos oldR (by omega : 0 < r)
      rw [eeaLoop_of_one_lt hgt]
      exact ih _ _ _ _ hgt (Int.emod_nonneg oldR (by omega)) (by omega) (by rw [Int.gcd_comm, Int.gcd_emod, hgcd])

/-- An answer of `eea` is an inverse in [0, N). -/
theorem eea_spec {a n x : Int} (h2 : 2 ≤ n) (h : eea a n = some x) : 0 ≤ x ∧ x < n ∧ (a * x) % n = 1 := by
  obtain ⟨c, hc, rfl⟩ := Option.map_eq_some_iff.mp h
  obtain ⟨h0, hlt⟩ := normZ_range c n (by omega)
  have hinv : c * a ≡ 1 [ZMOD n] := modEq_one_of_eeaLoop _ n a 0 1 (by simp [Int.ModEq]) (by simp [Int.ModEq]) hc
  refine ⟨h0, hlt, ?_⟩
  calc a * normZ c n % n = normZ c n * a % n := by rw [mul_comm]
    _ = c * a % n := normZ_mul_left c a n
    _ = 1 % n := hinv
    _ = 1 := Int.emod_eq_of_lt (by omega) (by omega)

/-- `eea` answers exactly when the gcd is 1. -/
theorem eea_isSome_iff {a n : Int} (h0 : 0 ≤ a) (h2 : 2 ≤ n) : (eea a n).isSome ↔ Int.gcd a n = 1 := by
  constructor
  · intro h
    obtain ⟨x, hx⟩ := Option.isSome_iff_exists.mp h
    obtain ⟨-, -, hinv⟩ := eea_spec h2 hx
    rw [← Int.isCoprime_iff_gcd_eq_one]
    refine ⟨x, -(a * x / n), ?_⟩
    linarith [Int.emod_add_mul_ediv (a * x) n]
  · intro h
    rw [eea, Option.isSome_map]
    exact eeaLoop_isSome _ n a 0 1 (by omega) h0 (by omega) (by rwa [Int.gcd_comm])

/-- Two inverses x, y of a in [0, N) are equal: both are the residue of a · x · y. -/
theorem inverse_unique {a n x y : Int} (hx : 0 ≤ x ∧ x < n ∧ a * x % n = 1) (hy : 0 ≤ y ∧ y < n ∧ a * y % n = 1) :
    y = x := by
  obtain ⟨hx0, hxlt, hxinv⟩ := hx
  obtain ⟨hy0, hylt, hyinv⟩ := hy
  calc y = (a * x % n) * y % n := by rw [hxinv, one_mul, Int.emod_eq_of_lt hy0 hylt]
    _ = a * x * y % n := normZ_mul_left (a * x) y n
    _ = a * y * x % n := by rw [mul_right_comm]
    _ = (a * y % n) * x % n := (normZ_mul_left (a * y) x n).symm
    _ = x := by rw [hyinv, one_mul, Int.emod_eq_of_lt hx0 hxlt]

/-- Settles O20: an answer of `eea` is an inverse, which is unique, and there is one exactly when the gcd is 1. -/
theorem euclidOutcomeIsTheInverseOrNone : Obligations.EuclidOutcomeIsTheInverseOrNone := by
  intro a0 n h0 _ h2
  refine ⟨fun hgcd => ?inverse, fun hgcd => ?noinv⟩
  case inverse =>
    obtain ⟨x, hx⟩ := Option.isSome_iff_exists.mp ((eea_isSome_iff h0 h2).mpr hgcd)
    obtain ⟨hx0, hxlt, hinv⟩ := eea_spec h2 hx
    exact ⟨x, hx, hx0, hxlt, hinv, fun y hy0 hylt hy => inverse_unique ⟨hx0, hxlt, hinv⟩ ⟨hy0, hylt, hy⟩⟩
  case noinv => rwa [← Option.not_isSome_iff_eq_none, eea_isSome_iff h0 h2]

/-! ### The two commands (41_modular_arithmetic.md R96, R97) -/

/-- A command whose outcome is a success completes with it (40_command_cycle.md R82). -/
theorem exec_of_outcomeOf_ok {i : Instr} {s : State} {w : Writes} (h : outcomeOf i s.latch = .ok w) :
    exec i s = .next (complete (.ok w) s) :=
  h ▸ exec_eq_complete i s

/-- The word of an integer in [0, N) holds it, where N is a 32-bit modulus (41_modular_arithmetic.md R103). -/
theorem zext32_toNat_of_lt {n v : Int} (hn : FitsInt32 n) (h0 : 0 ≤ v) (hlt : v < n) : ((zext32 v).toNat : Int) = v :=
  zext32_toNat v h0 (by have := hn.2; omega)

/-- The word of `norm(x, N)` is the residue of x (00_scope.md R14). -/
theorem zext32_normZ_isResidueOf {n : Int} (hn : FitsInt32 n) (h2 : 2 ≤ n) (x : Int) :
    IsResidueOf (zext32 (normZ x n)) x n := by
  obtain ⟨h0, hlt⟩ := normZ_range x n (by omega)
  rw [IsResidueOf, zext32_toNat_of_lt hn h0 hlt]
  exact ⟨hlt, dvd_sub_normZ x n⟩

theorem opModinv_of_eea {l : Latch} {x : Int} (h : eea (normZ l.s l.n) l.n = some x) :
    opModinv l = .ok { rS := some (zext32 x) } := by
  rw [opModinv, h]

/-- Settles O11: the outcome is a success that writes the residue alone. -/
theorem normWritesResidue : Obligations.NormWritesResidue := fun _ _ _ _ hfits h2 =>
  ⟨_, _, exec_of_outcomeOf_ok (withModulus_of_le _ _ h2), succeeded_complete_ok _ _, complete_frame _ _, rfl,
    zext32_normZ_isResidueOf hfits.n h2 _⟩

/-- Settles O12: the residue of S is in the range of O20, so with gcd 1 `eea` answers its inverse, and R_S is that word. -/
theorem modinvWritesInverse : Obligations.ModinvWritesInverse := by
  intro m v ssel s hfits h2 hgcd
  obtain ⟨hres0, hreslt⟩ := normZ_range s.latch.s s.latch.n (by omega)
  obtain ⟨x, hx, hx0, hxlt, hinv, -⟩ := (euclidOutcomeIsTheInverseOrNone _ _ hres0 hreslt h2).1 hgcd
  have hword := zext32_toNat_of_lt hfits.n hx0 hxlt
  have hok : outcomeOf (.modinv m v ssel) s.latch = .ok { rS := some (zext32 x) } :=
    (withModulus_of_le _ _ h2).trans (opModinv_of_eea hx)
  refine ⟨_, zext32 x, exec_of_outcomeOf_ok hok, succeeded_complete_ok _ _, complete_frame _ _, rfl, ?_⟩
  rw [hword]
  exact ⟨hxlt, hinv⟩

end Sys2Proof.Machine
end

section
/-! ### Matrices and vectors mod N, and residues entry by entry (00_scope.md R14, R16) -/

namespace Sys2Proof

open Machine

/-- The matrix over the integers mod N. -/
def Mat.modN (n : Int) (m : Mat Int) : Matrix (Fin 2) (Fin 2) (ZMod n.natAbs) :=
  !![(m.m00 : ZMod n.natAbs), m.m01; m.m10, m.m11]

/-- The vector over the integers mod N. -/
def Vec2.modN (n : Int) (v : Vec2 Int) : Fin 2 → ZMod n.natAbs := ![(v.v0 : ZMod n.natAbs), v.v1]

/-- The entries as unsigned numbers: what a register that holds residues means (30_encoding.md R67). -/
def Mat.values (r : Mat Word) : Mat Int := r.map fun w => (w.toNat : Int)

/-- The entries as unsigned numbers. -/
def Vec2.values (r : Vec2 Word) : Vec2 Int := r.map fun w => (w.toNat : Int)

/-- Every entry of r is the residue of the entry of m at its place. -/
def Mat.IsResidueOf (r : Mat Word) (m : Mat Int) (n : Int) : Prop :=
  Machine.IsResidueOf r.m00 m.m00 n ∧ Machine.IsResidueOf r.m01 m.m01 n ∧ Machine.IsResidueOf r.m10 m.m10 n ∧
    Machine.IsResidueOf r.m11 m.m11 n

/-- Both entries of r are the residues of the entries of v. -/
def Vec2.IsResidueOf (r : Vec2 Word) (v : Vec2 Int) (n : Int) : Prop :=
  Machine.IsResidueOf r.v0 v.v0 n ∧ Machine.IsResidueOf r.v1 v.v1 n

/-! ### Equations mod N -/

theorem intCast_eq_iff_emod {n x y : Int} : (x : ZMod n.natAbs) = y ↔ x % n = y % n := by
  rw [ZMod.intCast_eq_intCast_iff', Int.natCast_natAbs, Int.emod_abs, Int.emod_abs]

/-- A matrix product that is d times the identity mod N, entry by entry. -/
theorem modN_mul_eq_smul_one_iff {n d : Int} {a b : Mat Int} :
    a.modN n * b.modN n = (d : ZMod n.natAbs) • 1 ↔
      (a.m00 * b.m00 + a.m01 * b.m10) % n = d % n ∧ (a.m00 * b.m01 + a.m01 * b.m11) % n = 0 ∧
      (a.m10 * b.m00 + a.m11 * b.m10) % n = 0 ∧ (a.m10 * b.m01 + a.m11 * b.m11) % n = d % n := by
  have hzero (x : Int) : (x : ZMod n.natAbs) = 0 ↔ x % n = 0 := by
    simpa using intCast_eq_iff_emod (n := n) (x := x) (y := 0)
  rw [Mat.modN, Mat.modN, Matrix.mul_fin_two, Matrix.one_fin_two, ← Matrix.ext_iff]
  simp [Fin.forall_fin_two, ← hzero, ← intCast_eq_iff_emod, and_assoc]

/-- A product that is the identity mod N, entry by entry. -/
theorem modN_mul_eq_one_iff {n : Int} {a b : Mat Int} (h2 : 2 ≤ n) :
    a.modN n * b.modN n = 1 ↔
      (a.m00 * b.m00 + a.m01 * b.m10) % n = 1 ∧ (a.m00 * b.m01 + a.m01 * b.m11) % n = 0 ∧
      (a.m10 * b.m00 + a.m11 * b.m10) % n = 0 ∧ (a.m10 * b.m01 + a.m11 * b.m11) % n = 1 := by
  have hone : (1 : Int) % n = 1 := Int.emod_eq_of_lt (by omega) (by omega)
  simpa [hone] using modN_mul_eq_smul_one_iff (n := n) (d := 1) (a := a) (b := b)

theorem modN_matVec (n : Int) (m : Mat Int) (v : Vec2 Int) :
    (matVec m v).modN n = (m.modN n).mulVec (v.modN n) := by
  ext i
  fin_cases i <;> simp [Vec2.modN, Mat.modN, matVec, Matrix.mulVec, dotProduct, Fin.sum_univ_two]

theorem modN_map_mul (n x : Int) (m : Mat Int) :
    (m.map (· * x)).modN n = (x : ZMod n.natAbs) • m.modN n := by
  simp [Mat.modN, Mat.map, mul_comm]

theorem modN_adjugateRaw (n : Int) (m : Mat Int) : (adjugateRaw m).modN n = (m.modN n).adjugate := by
  simp [Mat.modN, adjugateRaw]

theorem intCast_determinant (n : Int) (m : Mat Int) : ((determinant m : Int) : ZMod n.natAbs) = (m.modN n).det := by
  simp [Mat.modN, determinant, Matrix.det_fin_two_of]

/-- A matrix times its adjugate is det(M) times the identity (42_matrix_ops.md R114). -/
theorem modN_mul_adjugateRaw (n : Int) (m : Mat Int) :
    m.modN n * (adjugateRaw m).modN n = (determinant m : ZMod n.natAbs) • 1 := by
  rw [modN_adjugateRaw, Matrix.mul_adjugate, intCast_determinant]

/-- An adjugate scaled by an inverse x of the determinant is a two-sided inverse mod N (42_matrix_ops.md R114, R120). -/
theorem modN_inverse_of_adjugate {n x : Int} {m r : Mat Int} (hx : determinant m * x % n = 1 % n)
    (hr : r.modN n = ((adjugateRaw m).map (· * x)).modN n) :
    m.modN n * r.modN n = 1 ∧ r.modN n * m.modN n = 1 := by
  have hdet : (x : ZMod n.natAbs) * (determinant m : Int) = 1 := by
    rw [mul_comm, ← Int.cast_mul, intCast_eq_iff_emod.mpr hx, Int.cast_one]
  have hright : m.modN n * r.modN n = 1 := by
    rw [hr, modN_map_mul, Matrix.mul_smul, modN_mul_adjugateRaw, smul_smul, hdet, one_smul]
  exact ⟨hright, mul_eq_one_comm.mp hright⟩

/-- The determinant of a matrix with an inverse mod N is coprime to N (42_matrix_ops.md R119). -/
theorem gcd_determinant_of_modN_mul_eq_one {n : Int} {a b : Mat Int} (h : a.modN n * b.modN n = 1) :
    Int.gcd (determinant a) n = 1 := by
  have hdet : IsUnit ((determinant a : Int) : ZMod n.natAbs) := by
    rw [intCast_determinant]
    exact (Matrix.isUnit_iff_isUnit_det _).mp (IsUnit.of_mul_eq_one _ h)
  rwa [ZMod.coe_int_isUnit_iff_isCoprime, Int.natCast_natAbs, IsCoprime.abs_left_iff, isCoprime_comm,
    Int.isCoprime_iff_gcd_eq_one] at hdet

/-! ### Residues entry by entry -/

theorem isResidueOf_iff {w : Word} {x n : Int} :
    Machine.IsResidueOf w x n ↔ (w.toNat : Int) < n ∧ ((w.toNat : Int) : ZMod n.natAbs) = x := by
  rw [Machine.IsResidueOf, ZMod.intCast_eq_intCast_iff_dvd_sub, Int.natCast_natAbs, abs_dvd]

/-- A word below a 32-bit modulus decodes to itself (30_encoding.md R67). -/
theorem sint32_of_lt {w : Word} {n : Int} (hn : FitsInt32 n) (h : (w.toNat : Int) < n) : sint32 w = w.toNat :=
  sint32_of_small w (by have := hn.2; omega)

/-- The residue of an operand word that is a residue already is that word. -/
theorem eq_of_isResidueOf {w w' : Word} {n : Int} (hn : FitsInt32 n) (h : Machine.IsResidueOf w w'.toInt n)
    (h0 : 0 ≤ w'.toInt) (hlt : w'.toInt < n) : w = w' := by
  obtain ⟨hwlt, hdvd⟩ := h
  refine BitVec.eq_of_toInt_eq ?_
  calc w.toInt = w.toNat := sint32_of_lt hn hwlt
    _ = w.toNat % n := (Int.emod_eq_of_lt (Int.natCast_nonneg _) hwlt).symm
    _ = w'.toInt % n := Int.modEq_iff_dvd.mpr hdvd
    _ = w'.toInt := Int.emod_eq_of_lt h0 hlt

theorem Mat.isResidueOf_map {n : Int} (hn : FitsInt32 n) (h2 : 2 ≤ n) (f : Int → Int) (m : Mat Int) :
    (m.map fun x => zext32 (normZ (f x) n)).IsResidueOf (m.map f) n :=
  ⟨zext32_normZ_isResidueOf hn h2 _, zext32_normZ_isResidueOf hn h2 _, zext32_normZ_isResidueOf hn h2 _,
    zext32_normZ_isResidueOf hn h2 _⟩

theorem Vec2.isResidueOf_map {n : Int} (hn : FitsInt32 n) (h2 : 2 ≤ n) (v : Vec2 Int) :
    (v.map fun x => zext32 (normZ x n)).IsResidueOf v n :=
  ⟨zext32_normZ_isResidueOf hn h2 _, zext32_normZ_isResidueOf hn h2 _⟩

/-- A matrix of residues is the matrix mod N. -/
theorem Mat.isResidueOf_iff {r : Mat Word} {m : Mat Int} {n : Int} :
    r.IsResidueOf m n ↔ r.All (fun w => (w.toNat : Int) < n) ∧ r.values.modN n = m.modN n := by
  simp only [Mat.IsResidueOf, Sys2Proof.isResidueOf_iff, Mat.All, Mat.modN, Mat.values, Mat.map]
  rw [← Matrix.ext_iff]
  simp only [Fin.forall_fin_two, Matrix.of_apply, Matrix.cons_val_zero, Matrix.cons_val_one]
  tauto

theorem Vec2.isResidueOf_iff {r : Vec2 Word} {v : Vec2 Int} {n : Int} :
    r.IsResidueOf v n ↔ r.All (fun w => (w.toNat : Int) < n) ∧ r.values.modN n = v.modN n := by
  simp only [Vec2.IsResidueOf, Sys2Proof.isResidueOf_iff, Vec2.All, Vec2.modN, Vec2.values, Vec2.map]
  rw [funext_iff]
  simp only [Fin.forall_fin_two, Matrix.cons_val_zero, Matrix.cons_val_one]
  tauto

/-- A matrix of words below N, selected as an operand, is latched as the numbers it holds (30_encoding.md R67). -/
theorem Mat.map_sint32_of_lt {r : Mat Word} {n : Int} (hn : FitsInt32 n) (h : r.All fun w => (w.toNat : Int) < n) :
    r.map sint32 = r.values := by
  obtain ⟨h00, h01, h10, h11⟩ := h
  simp only [Mat.map, Mat.values, sint32_of_lt hn h00, sint32_of_lt hn h01, sint32_of_lt hn h10, sint32_of_lt hn h11]

theorem Vec2.map_sint32_of_lt {r : Vec2 Word} {n : Int} (hn : FitsInt32 n) (h : r.All fun w => (w.toNat : Int) < n) :
    r.map sint32 = r.values := by
  obtain ⟨h0, h1⟩ := h
  simp only [Vec2.map, Vec2.values, sint32_of_lt hn h0, sint32_of_lt hn h1]

end Sys2Proof
end

section
/-! ### The matrix commands (42_matrix_ops.md R105 to R120) -/

namespace Sys2Proof.Machine

/-! ### Exact results (42_matrix_ops.md R105) -/

/-- An exact result is read back from its raw register (10_state.md R34). -/
theorem sext96_toInt_of_abs_le {v : Int} (h : |v| ≤ 2 ^ 63) : (sext96 v).toInt = v := by
  obtain ⟨hlo, hhi⟩ := abs_le.mp h
  exact sext96_toInt v (by omega) (by omega)

theorem sext96_row_toInt {a b c d : Int} (ha : FitsInt32 a) (hb : FitsInt32 b) (hc : FitsInt32 c) (hd : FitsInt32 d) :
    (sext96 (a * b + c * d)).toInt = a * b + c * d :=
  sext96_toInt_of_abs_le <| (abs_add_le _ _).trans <| by linarith [ha.abs_mul_le hb, hc.abs_mul_le hd]

theorem Latch.Fits.sext96_matVec {l : Latch} (h : l.Fits) :
    (sext96 (matVec l.m l.v).v0).toInt = (matVec l.m l.v).v0 ∧ (sext96 (matVec l.m l.v).v1).toInt = (matVec l.m l.v).v1 :=
  ⟨sext96_row_toInt h.m00 h.v0 h.m01 h.v1, sext96_row_toInt h.m10 h.v0 h.m11 h.v1⟩

theorem Latch.Fits.sext96_determinant {l : Latch} (h : l.Fits) :
    (sext96 (determinant l.m)).toInt = determinant l.m :=
  sext96_toInt_of_abs_le <| (abs_sub _ _).trans <| by linarith [h.m00.abs_mul_le h.m11, h.m01.abs_mul_le h.m10]

/-! ### MVMUL, MVMULM, DET and DETM (42_matrix_ops.md R107 to R111) -/

/-- Settles O13: MVMUL succeeds on every latch, and its rows fit the raw registers. -/
theorem mvmulWritesExactProduct : Obligations.MvmulWritesExactProduct := fun _ _ _ s hfits =>
  ⟨_, _, _, exec_eq_complete _ s, succeeded_complete_ok _ _, complete_frame _ _, rfl, hfits.sext96_matVec⟩

/-- Settles O14: N ≥ 2 passes the modulus check; the residues are taken of the exact rows. -/
theorem mvmulmWritesProductAndResidues : Obligations.MvmulmWritesProductAndResidues := by
  intro m v x s hfits h2
  obtain ⟨hrow0, hrow1⟩ := hfits.sext96_matVec
  obtain ⟨hres0, hres1⟩ := Vec2.isResidueOf_map hfits.n h2 (matVec s.latch.m s.latch.v)
  exact ⟨_, _, _, _, _, exec_of_outcomeOf_ok (withModulus_of_le _ _ h2), succeeded_complete_ok _ _, complete_frame _ _,
    rfl, hrow0, hrow1, hrow0.symm ▸ hres0, hrow1.symm ▸ hres1⟩

/-- Settles O15: DET succeeds on every latch, and the determinant fits the raw register. -/
theorem detWritesExactDeterminant : Obligations.DetWritesExactDeterminant := fun _ _ _ s hfits =>
  ⟨_, _, exec_eq_complete _ s, succeeded_complete_ok _ _, complete_frame _ _, rfl, hfits.sext96_determinant⟩

/-- Settles O16: N ≥ 2 passes the modulus check; the residue is taken of the exact determinant, invertible or not. -/
theorem detmWritesDeterminantAndResidue : Obligations.DetmWritesDeterminantAndResidue := by
  intro m v x s hfits h2
  have hdet := hfits.sext96_determinant
  exact ⟨_, _, _, exec_of_outcomeOf_ok (withModulus_of_le _ _ h2), succeeded_complete_ok _ _, complete_frame _ _, rfl,
    hdet, hdet.symm ▸ zext32_normZ_isResidueOf hfits.n h2 _⟩

/-! ### ADJ and SMULM (42_matrix_ops.md R113 to R115) -/

/-- Settles O17: mod N, R_M is the adjugate, so M times it is det(M) times the identity. -/
theorem adjWritesAdjugate : Obligations.AdjWritesAdjugate := by
  intro m v x s hfits h2
  have hres : ((adjugateRaw s.latch.m).map fun y => zext32 (normZ y s.latch.n)).IsResidueOf
      (adjugateRaw s.latch.m) s.latch.n := Mat.isResidueOf_map hfits.n h2 id _
  obtain ⟨-, hmod⟩ := Mat.isResidueOf_iff.mp hres
  have hprod := modN_mul_eq_smul_one_iff.mp (hmod.symm ▸ modN_mul_adjugateRaw s.latch.n s.latch.m)
  obtain ⟨h00, h01, h10, h11⟩ := hres
  exact ⟨_, _, exec_of_outcomeOf_ok (withModulus_of_le _ _ h2), succeeded_complete_ok _ _, complete_frame _ _, rfl,
    h00, h01, h10, h11, hprod⟩

/-- Settles O18: N ≥ 2 passes the modulus check, and every entry is the residue of its product with S. -/
theorem smulmWritesScaledMatrix : Obligations.SmulmWritesScaledMatrix := fun _ _ _ s hfits h2 =>
  ⟨_, _, exec_of_outcomeOf_ok (withModulus_of_le _ _ h2), succeeded_complete_ok _ _, complete_frame _ _, rfl,
    Mat.isResidueOf_map hfits.n h2 (· * s.latch.s) s.latch.m⟩

/-! ### MINV (42_matrix_ops.md R117 to R120) -/

/-- The outcome of MINV where `eea` answers x; reducing the adjugate before the product makes no difference (R118). -/
theorem opMinv_of_eea {l : Latch} {x : Int} (h : eea (normZ (determinant l.m) l.n) l.n = some x) :
    opMinv l = .ok { rDet := some (sext96 (determinant l.m))
                     rS := some (zext32 x)
                     rM := some ((adjugateRaw l.m).map fun y => zext32 (normZ (y * x) l.n)) } := by
  simp only [opMinv, h, normZ_mul_left]

/-- With gcd(det(M), N) = 1, `eea` answers the inverse of the determinant (41_modular_arithmetic.md R99). -/
theorem exists_eea_determinant {m : Mat Int} {n : Int} (h2 : 2 ≤ n) (hgcd : Int.gcd (determinant m) n = 1) :
    ∃ x, eea (normZ (determinant m) n) n = some x ∧ 0 ≤ x ∧ x < n ∧ determinant m * x % n = 1 := by
  obtain ⟨h0, -⟩ := normZ_range (determinant m) n (by omega)
  obtain ⟨x, hx⟩ := Option.isSome_iff_exists.mp ((eea_isSome_iff h0 h2).mpr (by rwa [normZ, Int.gcd_emod]))
  obtain ⟨hx0, hxlt, hinv⟩ := eea_spec h2 hx
  exact ⟨x, hx, hx0, hxlt, (normZ_mul_left _ x n).symm.trans hinv⟩

/-- MINV where gcd(det(M), N) = 1: R_S is the inverse of the determinant, R_M the adjugate scaled by it, mod N. -/
theorem exec_minv (m v x : Bool) {s : State} {M : Mat Int} {n : Int} (hfits : s.latch.Fits) (hM : s.latch.m = M)
    (hn : s.latch.n = n) (h2 : 2 ≤ n) (hgcd : Int.gcd (determinant M) n = 1) :
    ∃ t d w r, exec (.minv m v x) s = .next t ∧ Succeeded s t ∧ CommandFrame s t ∧
      t.results = { s.results with rDet := d, rS := w, rM := r } ∧ d.toInt = determinant M ∧
      (w.toNat : Int) < n ∧ determinant M * w.toNat % n = 1 ∧
      r.IsResidueOf ((adjugateRaw M).map (· * (w.toNat : Int))) n := by
  subst hM hn
  obtain ⟨dinv, hdinv, h0, hlt, hinv⟩ := exists_eea_determinant h2 hgcd
  have hok : outcomeOf (.minv m v x) s.latch = _ := (withModulus_of_le _ _ h2).trans (opMinv_of_eea hdinv)
  refine ⟨_, _, zext32 dinv, _, exec_of_outcomeOf_ok hok, succeeded_complete_ok _ _, complete_frame _ _, rfl,
    hfits.sext96_determinant, ?_⟩
  rw [zext32_toNat_of_lt hfits.n h0 hlt]
  exact ⟨hlt, hinv, Mat.isResidueOf_map hfits.n h2 (· * dinv) _⟩

/-- R_M after MINV is a two-sided inverse of M mod N (42_matrix_ops.md R120). -/
theorem modN_inverse_of_minv {n : Int} {w : Word} {m : Mat Int} {r : Mat Word} (h2 : 2 ≤ n)
    (hw : determinant m * w.toNat % n = 1) (hr : r.IsResidueOf ((adjugateRaw m).map (· * (w.toNat : Int))) n) :
    m.modN n * r.values.modN n = 1 ∧ r.values.modN n * m.modN n = 1 := by
  obtain ⟨-, hmod⟩ := Mat.isResidueOf_iff.mp hr
  exact modN_inverse_of_adjugate (hw.trans (Int.emod_eq_of_lt (by omega) (by omega)).symm) hmod

/-- Settles O19: `exec_minv`, with the two identities of R_M and M entry by entry. -/
theorem minvWritesModularInverse : Obligations.MinvWritesModularInverse := by
  intro m v x s hfits h2 hgcd
  obtain ⟨t, d, w, r, ht, hsucc, hframe, hresults, hd, hlt, hinv, hr⟩ := exec_minv m v x hfits rfl rfl h2 hgcd
  obtain ⟨hright, hleft⟩ := modN_inverse_of_minv h2 hinv hr
  obtain ⟨r00, r01, r10, r11⟩ := (modN_mul_eq_one_iff h2).mp hright
  obtain ⟨h00, h01, h10, h11⟩ := hr
  exact ⟨t, d, w, r, ht, hsucc, hframe, hresults, hd, hlt, hd.symm ▸ hinv, h00, h01, h10, h11, r00, r01, r10, r11,
    (modN_mul_eq_one_iff h2).mp hleft⟩

end Sys2Proof.Machine
end

section
/-! ### Commands run one after another, each launched by the host and completed by CORE (42_matrix_ops.md R121, R122) -/

namespace Sys2Proof.Machine

/-! ### One command: its launch and its completion -/

/-- The host may launch a command: reset is not asserted and no command runs. -/
def State.Idle (s : State) : Prop := s.rstIn = false ∧ s.status.busy = false

/-- From the state s two turns launch a command and complete it, and t is what they leave: idle, with the operand
registers kept (40_command_cycle.md R78, R82). -/
structure RunsCommand (s t : State) (rest : List Turn) : Prop where
  run : ∀ k, Host.Core.run Sys2Proof.core (k + 2) s = Host.Core.run Sys2Proof.core k t
  idle : t.Idle
  turns : t.turns = rest
  operands : t.operands = s.operands
  done : t.status.done = true

/-- A command word written to an idle core is launched by that turn, and decoded and completed by CORE's. -/
theorem runsCommand_of_exec {i : Instr} {d : Word} {s t : State} {rest : List Turn} (hs : s.Idle)
    (hturns : s.turns = cmdWrite d :: .core :: rest) (hd : decode d = some i)
    (h : exec i ((launch d s).begin rest) = .next t) : RunsCommand s t rest := by
  obtain ⟨hr, hb⟩ := hs
  have hlaunch := step_write s .cmd d (.core :: rest) hr hturns
  rw [writeReg_cmd_idle d (s := s.begin (.core :: rest)) hb] at hlaunch
  have hcomplete : step { launch d (s.begin (.core :: rest)) with response := some .okWrite } = .next t :=
    (step_cons _ .core rest rfl).trans ((takeTurn_core_exec (s := (launch d s).begin rest) hr rfl hd).trans h)
  rw [exec_eq_complete] at h
  cases h
  exact ⟨fun k => (run_succ (k + 1) _ _ hlaunch).trans (run_succ k _ _ hcomplete),
    ⟨(complete_rstIn _ _).trans hr, complete_busy _ _⟩, complete_turns _ _, complete_operands _ _, complete_done _ _⟩

/-- Two commands run one after the other. -/
theorem RunsCommand.trans_run {s t u : State} {rest rest' : List Turn} (h : RunsCommand s t rest)
    (h' : RunsCommand t u rest') (k : Nat) :
    Host.Core.run Sys2Proof.core (k + 4) s = Host.Core.run Sys2Proof.core k u :=
  (h.run (k + 2)).trans (h'.run k)

/-! ### Operands latched from the result registers (30_encoding.md R67) -/

theorem snapshot_m_of_results {d : Word} {s : State} {n : Int} (hd : d.getLsbD 8 = true) (hn : FitsInt32 n)
    (h : s.results.rM.All fun w => (w.toNat : Int) < n) : (snapshot d s).m = s.results.rM.values := by
  rw [snapshot, hd, selectMatrix, if_pos rfl, Mat.map_sint32_of_lt hn h]

theorem snapshot_v_of_results {d : Word} {s : State} {n : Int} (hd : d.getLsbD 9 = true) (hn : FitsInt32 n)
    (h : s.results.rV.All fun w => (w.toNat : Int) < n) : (snapshot d s).v = s.results.rV.values := by
  rw [snapshot, hd, selectVector, if_pos rfl, Vec2.map_sint32_of_lt hn h]

/-! ### MINV and MVMULM launched and completed -/

section
variable {m v x : Bool} {d : Word} {s : State} {rest : List Turn} {M : Mat Int} {V : Vec2 Int} {n : Int}

/-- MINV run on an invertible matrix M leaves residues in R_M, a two-sided inverse of M mod N, and R_V as it was. -/
theorem runsCommand_minv (hs : s.Idle) (hturns : s.turns = cmdWrite d :: .core :: rest)
    (hd : decode d = some (.minv m v x)) (hM : (snapshot d s).m = M) (hn : s.operands.mod.toInt = n) (h2 : 2 ≤ n)
    (hgcd : Int.gcd (determinant M) n = 1) :
    ∃ t, RunsCommand s t rest ∧ t.status.err = false ∧ t.results.rV = s.results.rV ∧
      (t.results.rM.All fun w => (w.toNat : Int) < n) ∧
      M.modN n * t.results.rM.values.modN n = 1 ∧ t.results.rM.values.modN n * M.modN n = 1 := by
  obtain ⟨t, det, w, r, ht, hsucc, -, hresults, -, -, hinv, hres⟩ :=
    exec_minv m v x (s := (launch d s).begin rest) (launch_fits d s) hM hn h2 hgcd
  obtain ⟨hlt, -⟩ := Mat.isResidueOf_iff.mp hres
  refine ⟨t, runsCommand_of_exec hs hturns hd ht, congrArg Status.err hsucc, ?_⟩
  rw [hresults]
  exact ⟨rfl, hlt, modN_inverse_of_minv h2 hinv hres⟩

/-- MVMULM run on M and V leaves residues in R_V, which are M · V mod N. -/
theorem runsCommand_mvmulm (hs : s.Idle) (hturns : s.turns = cmdWrite d :: .core :: rest)
    (hd : decode d = some (.mvmulm m v x)) (hM : (snapshot d s).m = M) (hV : (snapshot d s).v = V)
    (hn : s.operands.mod.toInt = n) (h2 : 2 ≤ n) :
    ∃ t, RunsCommand s t rest ∧ t.status.err = false ∧ (t.results.rV.All fun w => (w.toNat : Int) < n) ∧
      t.results.rV.values.modN n = (M.modN n).mulVec (V.modN n) := by
  subst hM hV hn
  obtain ⟨t, w0, w1, r0, r1, ht, hsucc, -, hresults, hw0, hw1, hr0, hr1⟩ :=
    mvmulmWritesProductAndResidues m v x ((launch d s).begin rest) (launch_fits d s) h2
  have hres : t.results.rV.IsResidueOf (matVec (snapshot d s).m (snapshot d s).v) s.operands.mod.toInt := by
    rw [hw0] at hr0
    rw [hw1] at hr1
    exact hresults ▸ ⟨hr0, hr1⟩
  rw [← modN_matVec]
  exact ⟨t, runsCommand_of_exec hs hturns hd ht, congrArg Status.err hsucc, Vec2.isResidueOf_iff.mp hres⟩

end

/-! ### The programs -/

/-- Settles O55: mod N, M is a left and the second R_M a right inverse of the first R_M, so they are equal. -/
theorem inverseOfInverseIsTheMatrix : Obligations.InverseOfInverseIsTheMatrix := by
  intro s rest hr hb h2 hgcd hturns
  obtain ⟨t, hrun, -, -, hlt, hMR, hRM⟩ :=
    runsCommand_minv (M := s.operands.m.map sint32) ⟨hr, hb⟩ hturns rfl rfl rfl h2 hgcd
  obtain ⟨u, hrun', herr, -, hlt', hRR', -⟩ :=
    runsCommand_minv hrun.idle hrun.turns rfl (snapshot_m_of_results rfl (sint32_range _) hlt)
      (congrArg (fun o => o.mod.toInt) hrun.operands) h2 (gcd_determinant_of_modN_mul_eq_one hRM)
  have hM := left_inv_eq_right_inv hMR hRR'
  exact ⟨u, hrun.trans_run hrun' 0, herr, hrun'.done, Mat.isResidueOf_iff.mpr ⟨hlt', hM.symm⟩⟩

/-- Settles O56: mod N, R_V is R_M · (M · V), and R_M · M is the identity. -/
theorem encryptThenDecryptReturnsTheBlock : Obligations.EncryptThenDecryptReturnsTheBlock := by
  intro s rest hr hb h2 hgcd hturns
  have hN : FitsInt32 s.operands.mod.toInt := sint32_range _
  obtain ⟨t, hencrypt, -, hblock, hMV⟩ :=
    runsCommand_mvmulm (M := s.operands.m.map sint32) (V := s.operands.v.map sint32) ⟨hr, hb⟩ hturns rfl rfl rfl rfl h2
  obtain ⟨u, hinvert, -, hkept, hinverse, -, hRM⟩ :=
    runsCommand_minv (M := s.operands.m.map sint32) hencrypt.idle hencrypt.turns rfl
      (congrArg (fun o => o.m.map sint32) hencrypt.operands) (congrArg (fun o => o.mod.toInt) hencrypt.operands) h2 hgcd
  rw [← hkept] at hblock hMV
  obtain ⟨w, hdecrypt, herr, hlt, hRV⟩ :=
    runsCommand_mvmulm hinvert.idle hinvert.turns rfl (snapshot_m_of_results rfl hN hinverse)
      (snapshot_v_of_results rfl hN hblock)
      (congrArg (fun o => o.mod.toInt) (hinvert.operands.trans hencrypt.operands)) h2
  rw [hMV, Matrix.mulVec_mulVec, hRM, Matrix.one_mulVec] at hRV
  obtain ⟨hv0, hv1⟩ := Vec2.isResidueOf_iff.mpr ⟨hlt, hRV⟩
  exact ⟨w, (hencrypt.trans_run hinvert 2).trans (hdecrypt.run 0), herr, hdecrypt.turns, hv0, hv1,
    eq_of_isResidueOf hN hv0, eq_of_isResidueOf hN hv1⟩

/-- Where MODINV's S and MINV's determinant are equal mod N, both ask `eea` for the same inverse: they end with the same
error or write the same R_S (42_matrix_ops.md R117, 41_modular_arithmetic.md R97). -/
theorem complete_modinv_agrees_minv {l l' : Latch} (h2 : 2 ≤ l.n) (hn : l.n = l'.n)
    (h : normZ l.s l.n = normZ (determinant l'.m) l.n) (m v x m' v' x' : Bool) (s s' : State) :
    let t := complete (outcomeOf (.modinv m v x) l) s
    let t' := complete (outcomeOf (.minv m' v' x') l') s'
    t.status.err = t'.status.err ∧ t.status.errcode = t'.status.errcode ∧
      (t'.status.err = false → t.results.rS = t'.results.rS) := by
  simp only [outcomeOf, withModulus_of_le l _ h2, withModulus_of_le l' _ (hn ▸ h2), opModinv, opMinv, ← hn, h]
  cases eea (normZ (determinant l'.m) l.n) l.n with
  | none => exact ⟨rfl, rfl, nofun⟩
  | some dinv => exact ⟨rfl, rfl, fun _ => rfl⟩

/-- Settles O57: the S that MODINV latches is the residue of the determinant that MINV computes. -/
theorem detmThenModinvAgreesWithMinv : Obligations.DetmThenModinvAgreesWithMinv := by
  rintro s _ rest hr hb hturns rfl h2
  have hN : FitsInt32 s.operands.mod.toInt := sint32_range _
  obtain ⟨t, d, w, ht, -, -, hresults, hd, hwlt, hw⟩ := detmWritesDeterminantAndResidue false false false
    ((launch 0x6 s).begin (cmdWrite 0x402 :: .core :: rest)) (launch_fits _ _) h2
  have hrun := runsCommand_of_exec ⟨hr, hb⟩ hturns rfl ht
  have hn : (snapshot 0x402 t).n = s.operands.mod.toInt := congrArg (fun o => o.mod.toInt) hrun.operands
  have hs : (snapshot 0x402 t).s = w.toNat :=
    (congrArg (fun r : ResultRegs => sint32 r.rS) hresults).trans (sint32_of_lt hN hwlt)
  have hS : normZ (snapshot 0x402 t).s s.operands.mod.toInt =
      normZ (determinant (snapshot 0x9 s).m) s.operands.mod.toInt := by
    rw [hs]
    rw [hd] at hw
    exact Int.modEq_iff_dvd.mpr hw
  have hmodinv := runsCommand_of_exec (i := .modinv false false true) hrun.idle hrun.turns rfl (exec_eq_complete _ _)
  have hminv := runsCommand_of_exec (s := { s with turns := cmdWrite 0x9 :: .core :: rest })
    (i := .minv false false false) ⟨hr, hb⟩ rfl rfl (exec_eq_complete _ _)
  exact ⟨_, _, hrun.trans_run hmodinv 0, hminv.run 0,
    complete_modinv_agrees_minv (hn ▸ h2) hn (hn.symm ▸ hS) _ _ _ _ _ _ _ _⟩

end Sys2Proof.Machine
end

section
/-! ### Where each of the three errors is raised (60_exceptions.md R127 to R129) -/

namespace Sys2Proof.Machine

/-! ### The code shown and the error raised (60_exceptions.md R125, R126) -/

theorem CmdError.code_inj {e e' : CmdError} : e.code = e'.code ↔ e = e' := by
  cases e <;> cases e' <;> decide

/-- A completion shows an error's code exactly when that error is its outcome. -/
theorem complete_errcode_eq_code_iff (o : CmdOutcome) (e : CmdError) (s : State) :
    (complete o s).status.errcode = e.code ↔ o = .err e := by
  cases o with
  | ok w => exact iff_of_false e.code_ne_zero.symm nofun
  | err e' => exact CmdError.code_inj.trans ⟨congrArg _, CmdOutcome.err.inj⟩

theorem failedWith_complete_err (e : CmdError) (s : State) : FailedWith e.code s (complete (.err e) s) := ⟨rfl, rfl⟩

/-- A command whose outcome is the error e exactly under P shows e's code exactly under P, and fails with it there. -/
theorem exec_fails_iff {i : Instr} {s : State} {e : CmdError} {P : Prop} (h : outcomeOf i s.latch = .err e ↔ P) :
    ∃ t, exec i s = .next t ∧ CommandFrame s t ∧ (t.status.errcode = e.code ↔ P) ∧ (P → FailedWith e.code s t) := by
  refine ⟨_, exec_eq_complete i s, complete_frame _ s, (complete_errcode_eq_code_iff _ e s).trans h, fun hP => ?_⟩
  rw [h.mpr hP]
  exact failedWith_complete_err e s

/-! ### NO_INVERSE (60_exceptions.md R127) -/

theorem gcd_normZ (x n : Int) : Int.gcd (normZ x n) n = Int.gcd x n := Int.gcd_emod x n

/-- `eea` finds no inverse of a residue exactly when its gcd with N is not 1 (41_modular_arithmetic.md R99). -/
theorem eea_normZ_eq_none_iff {n : Int} (h2 : 2 ≤ n) (x : Int) : eea (normZ x n) n = none ↔ Int.gcd x n ≠ 1 := by
  obtain ⟨h0, -⟩ := normZ_range x n (by omega)
  rw [← Option.not_isSome_iff_eq_none, eea_isSome_iff h0 h2, gcd_normZ]

theorem opModinv_eq_noInverse_iff (l : Latch) : opModinv l = .err .noInverse ↔ eea (normZ l.s l.n) l.n = none := by
  rw [opModinv]
  cases eea (normZ l.s l.n) l.n <;> simp

theorem opMinv_eq_noInverse_iff (l : Latch) :
    opMinv l = .err .noInverse ↔ eea (normZ (determinant l.m) l.n) l.n = none := by
  rw [opMinv]
  cases eea (normZ (determinant l.m) l.n) l.n <;> simp

/-- Settles O21: with N ≥ 2 the modulus check passes, so the outcome is what `eea` answers; the gcd with N is the same for
an integer and for its residue. -/
theorem noInverseExactlyWhenGcdIsNotOne : Obligations.NoInverseExactlyWhenGcdIsNotOne := by
  intro m v x s h2
  have hmodinv : outcomeOf (.modinv m v x) s.latch = .err .noInverse ↔ Int.gcd s.latch.s s.latch.n ≠ 1 := by
    rw [outcomeOf, withModulus_of_le _ _ h2, opModinv_eq_noInverse_iff, eea_normZ_eq_none_iff h2]
  have hminv : outcomeOf (.minv m v x) s.latch = .err .noInverse ↔
      Int.gcd (determinant s.latch.m) s.latch.n ≠ 1 := by
    rw [outcomeOf, withModulus_of_le _ _ h2, opMinv_eq_noInverse_iff, eea_normZ_eq_none_iff h2]
  obtain ⟨t, ht, hframe, hcode, hfails⟩ := exec_fails_iff hminv
  rw [Int.gcd_emod, Int.gcd_emod]
  exact ⟨exec_fails_iff hmodinv, t, ht, hframe, hcode, hcode, hfails⟩

/-! ### BAD_MODULUS (60_exceptions.md R128) -/

/-- The modulus check alone raises BAD_MODULUS. -/
theorem withModulus_eq_badModulus_iff {l : Latch} {o : CmdOutcome} (h : o ≠ .err .badModulus) :
    withModulus l o = .err .badModulus ↔ l.n < 2 := by
  by_cases hn : l.n < 2
  · exact iff_of_true (withModulus_of_lt l o hn) hn
  · rw [withModulus_of_le l o (by omega)]
    exact iff_of_false h hn

theorem opModinv_ne_badModulus (l : Latch) : opModinv l ≠ .err .badModulus := by
  rw [opModinv]
  cases eea (normZ l.s l.n) l.n <;> nofun

theorem opMinv_ne_badModulus (l : Latch) : opMinv l ≠ .err .badModulus := by
  rw [opMinv]
  cases eea (normZ (determinant l.m) l.n) l.n <;> nofun

/-- A command that reads N ends with BAD_MODULUS exactly when N < 2 (40_command_cycle.md R86). -/
theorem outcomeOf_eq_badModulus_iff {i : Instr} (hi : i.readsN = true) (l : Latch) :
    outcomeOf i l = .err .badModulus ↔ l.n < 2 := by
  cases i with
  | mvmul | det => cases hi
  | norm | mvmulm | detm | adj | smulm => exact withModulus_eq_badModulus_iff nofun
  | modinv => exact withModulus_eq_badModulus_iff (opModinv_ne_badModulus l)
  | minv => exact withModulus_eq_badModulus_iff (opMinv_ne_badModulus l)

/-- Settles O22: the launch latches sint32(MOD) as N. -/
theorem badModulusExactlyBelowTwo : Obligations.BadModulusExactlyBelowTwo := by
  intro s i hi
  obtain ⟨t, ht, hframe, hcode, hfails⟩ :=
    exec_fails_iff (outcomeOf_eq_badModulus_iff hi (launch (encode i) s).latch)
  exact ⟨t, ht, hframe, hfails, fun h2 hbad => absurd (hcode.mp hbad) (not_lt.mpr h2)⟩

/-! ### ILLEGAL_CMD (60_exceptions.md R129) -/

theorem latchOutcome_of_illegalWord {l : Latch} (h : IllegalWord l.cmd) : latchOutcome l = .err .illegalCmd := by
  rw [latchOutcome, (decodeRejectsExactlyIllegalWords l.cmd).mpr h]

/-- Settles O24: the launch latches the word and its bits [4:0] into LASTOP, and the completion keeps LASTOP. -/
theorem illegalWordFailsWithIllegalCmd : Obligations.IllegalWordFailsWithIllegalCmd := by
  intro s d hd
  have hillegal : latchOutcome (launch d s).latch = .err .illegalCmd := latchOutcome_of_illegalWord hd
  refine ⟨_, completion_eq _, ?_, complete_frame _ _, complete_lastop _ _⟩
  rw [hillegal]
  exact failedWith_complete_err .illegalCmd _

end Sys2Proof.Machine
end

section
/-! ### Resets and the operand hazard (70_reset_and_hazards.md R141 to R143, R150) -/

namespace Sys2Proof.Machine

/-! ### The reset input (70_reset_and_hazards.md R141) -/

/-- What the host sees of a state with every register at its reset value: no command runs, IRQ is 0, and every register
reads 0 but ID. -/
theorem State.Cleared.visible {s : State} (h : s.Cleared) :
    s.status.busy = false ∧ s.irq = false ∧ (∀ r : Reg, r ≠ .id → readReg s r = 0) ∧ readReg s .id = 0x4D4D4932 :=
  ⟨congrArg Status.busy h.status, irq_of_not_ie h.ie, fun _ => h.readReg_eq_zero, rfl⟩

/-- While reset is asserted every turn but its release clears every register, and an access gets no answer. -/
theorem takeTurn_held {u : Turn} {s : State} (hr : s.rstIn = true) (hu : u ≠ .resetOff) :
    ∃ t, takeTurn u s = .next t ∧ t.Cleared ∧ t.rstIn = true ∧ t.turns = s.turns ∧
      ∀ a, u = .host a → t.response = some .unanswered := by
  cases u with
  | host a =>
    exact ⟨{ resetRegs s with response := some .unanswered }, by simp [takeTurn, hr], ⟨rfl, rfl, rfl, rfl⟩, hr, rfl,
      fun _ _ => rfl⟩
  | core => exact ⟨resetRegs s, if_pos hr, resetRegs_cleared s, hr, rfl, nofun⟩
  | resetOn => exact ⟨{ resetRegs s with rstIn := true }, rfl, ⟨rfl, rfl, rfl, rfl⟩, rfl, rfl, nofun⟩
  | resetOff => exact absurd rfl hu

/-- Settles O42: the turn that asserts reset clears every register, and so does every turn taken while it is asserted. -/
theorem hardwareResetHoldsTheRegisters : Obligations.HardwareResetHoldsTheRegisters := by
  intro s u rest
  refine ⟨fun hturns => ?asserts, fun hr hturns hu => ?held⟩
  case asserts =>
    have hc : State.Cleared { resetRegs (s.begin rest) with rstIn := true } := ⟨rfl, rfl, rfl, rfl⟩
    exact ⟨_, step_cons s .resetOn rest hturns, rfl, rfl, rfl, hc.visible⟩
  case held =>
    obtain ⟨t, ht, hc, hheld, hrest, hunanswered⟩ := takeTurn_held (s := s.begin rest) hr hu
    obtain ⟨hb, hirq, hzero, hid⟩ := hc.visible
    exact ⟨t, (step_cons s u rest hturns).trans ht, hheld, hrest, hb, hirq, hzero, hid, hunanswered⟩

/-! ### The soft reset (70_reset_and_hazards.md R142, R143) -/

/-- A write to CTRL with bit 1 set resets every register, whether a command runs or not. -/
theorem step_softReset {s : State} {d : Word} {rest : List Turn} (hr : s.rstIn = false) (hd : d.getLsbD 1 = true)
    (hturns : s.turns = hostWrite .ctrl d :: rest) :
    step s = .next { resetRegs (s.begin rest) with response := some .okWrite } := by
  rw [step_write s .ctrl d rest hr hturns, writeReg_ctrl_softReset d _ hd]

/-- Settles O43: the reset drops BUSY with the other flags, so CORE's turn finds no command and passes (entry 3). -/
theorem softResetAbandonsTheCommand : Obligations.SoftResetAbandonsTheCommand := by
  intro s d rest hr _ hd hturns
  have hcore := coreHasNoStepWhenIdle { resetRegs (s.begin (.core :: rest)) with response := some .okWrite } rest hr rfl rfl
  have hc : State.Cleared { resetRegs (s.begin (.core :: rest)) with turns := rest, response := none } :=
    ⟨rfl, rfl, rfl, rfl⟩
  exact ⟨_, _, step_softReset hr hd hturns, hcore, rfl, rfl, rfl, rfl, rfl, rfl, fun _ => hc.readReg_eq_zero⟩

/-! ### Operand writes while a command runs (70_reset_and_hazards.md R150) -/

/-- A host write to an operand register writes it, and is answered ok, whether a command runs or not. -/
theorem step_operandWrite {s : State} {r : Reg} {d : Word} {rest : List Turn}
    (hreg : r ∈ [Reg.mod, .a, .m00, .m01, .m10, .m11, .v0, .v1]) (hr : s.rstIn = false)
    (hturns : s.turns = hostWrite r d :: rest) :
    step s = .next (State.answered { s with operands := s.operands.write r d } rest .okWrite) := by
  have hcontrol : r ∉ [Reg.cmd, .status, .ctrl] := by fin_cases hreg <;> decide
  rw [step_write s r d rest hr hturns, writeReg_of_ne_control hcontrol]
  rfl

/-- A completion neither reads nor writes the operand registers, the coming turns and the port's response
(40_command_cycle.md R85), so an answered operand write leads to the same state before it and after it, but for the
response (entry 12). -/
theorem complete_comm_operandWrite (o : CmdOutcome) (s : State) (r : Reg) (d : Word) (turns turns' rest : List Turn)
    (resp : Response) :
    { complete o ((State.answered { s with operands := s.operands.write r d } turns resp).begin rest) with
      response := none } =
    { State.answered { complete o (s.begin turns') with operands := (complete o (s.begin turns')).operands.write r d }
        rest resp with response := none } := by
  cases o <;> rfl

/-- Settles O53: the completion has the outcome of LATCH, which the write leaves alone, in either order. -/
theorem operandWriteCommutesWithCompletion : Obligations.OperandWriteCommutesWithCompletion := by
  rintro s _ d rest r hreg hr hb hturns rfl
  have hcompleted := step_core_busy { s with turns := .core :: hostWrite r d :: rest } _ hr hb rfl
  have hwritten := step_operandWrite (s := complete (latchOutcome s.latch) (s.begin (hostWrite r d :: rest))) hreg
    ((complete_rstIn _ _).trans hr) (complete_turns _ _)
  exact ⟨_, _, _, _, step_operandWrite hreg hr hturns, step_core_busy _ rest hr hb rfl, hcompleted, hwritten,
    complete_comm_operandWrite (latchOutcome s.latch) s r d _ _ rest .okWrite⟩

end Sys2Proof.Machine
end
